-- ==== Sys2Proof/Word.lean ====
section
/-! DEFINITION. The two sizes of datum the IE32 has: the byte that memory is made of (R50) and the
32-bit word that every register, address and arithmetic result is (R5, XLEN = 32). -/

namespace Sys2Proof

/-- The addressable unit of memory, 8 bits (R50). -/
abbrev Byte := BitVec 8

/-- A 32-bit value: a general register, PC, SP, an address, an operand field (R5). -/
abbrev Word := BitVec 32

end Sys2Proof
end

