-- ==== Sys2Proof/Syntax.lean ====
section
/-! DEFINITION. The instructions of the IE32, one constructor for each row of the opcode table (R87),
with the operands each one uses (R84). Fields that an instruction ignores (R83) are not part of it. -/

namespace Sys2Proof

/-- The 16 general registers by name, in index order: A is 0, W is 15 (R20). -/
inductive Reg where
  | a | x | y | z | b | c | d | e | f | g | h | s | t | u | v | w
  deriving DecidableEq, Repr

/-- The addressing modes of R85. -/
inductive Mode where
  /-- Code 0x00. -/
  | immediate
  /-- Code 0x01. -/
  | register
  /-- Code 0x02. -/
  | regIndirect
  /-- Code 0x03. -/
  | memIndirect
  /-- Code 0x04. -/
  | direct
  /-- Codes 0x05 to 0xFF, each with a defined behaviour (R90). -/
  | reserved (code : Byte)
  deriving DecidableEq, Repr

/-- An operand that the mode byte interprets: the mode and the whole 32-bit operand field. Every bit
of the field is kept, since the read-style and store-style readings use different bits (R114, R116). -/
structure Operand where
  mode : Mode
  operand32 : Word
  deriving DecidableEq, Repr

/-- The 64 instructions of R87, in opcode order. -/
inductive Instr where
  /-- LOAD, opcode 0x01, R140: register and resolving operand. -/
  | load (r : Reg) (o : Operand)
  /-- STORE, opcode 0x02, R160: register and resolving operand. -/
  | store (r : Reg) (o : Operand)
  /-- ADD, opcode 0x03, R180: register and resolving operand. -/
  | add (r : Reg) (o : Operand)
  /-- SUB, opcode 0x04, R181: register and resolving operand. -/
  | sub (r : Reg) (o : Operand)
  /-- AND, opcode 0x05, R190: register and resolving operand. -/
  | and (r : Reg) (o : Operand)
  /-- JMP, opcode 0x06, R200: target. -/
  | jmp (target : Word)
  /-- JNZ, opcode 0x07, R201: register and target. -/
  | jnz (r : Reg) (target : Word)
  /-- JZ, opcode 0x08, R202: register and target. -/
  | jz (r : Reg) (target : Word)
  /-- OR, opcode 0x09, R191: register and resolving operand. -/
  | or (r : Reg) (o : Operand)
  /-- XOR, opcode 0x0A, R192: register and resolving operand. -/
  | xor (r : Reg) (o : Operand)
  /-- SHL, opcode 0x0B, R196: register and resolving operand. -/
  | shl (r : Reg) (o : Operand)
  /-- SHR, opcode 0x0C, R197: register and resolving operand. -/
  | shr (r : Reg) (o : Operand)
  /-- NOT, opcode 0x0D, R193: register only. -/
  | not (r : Reg)
  /-- JGT, opcode 0x0E, R203: register and target. -/
  | jgt (r : Reg) (target : Word)
  /-- JGE, opcode 0x0F, R204: register and target. -/
  | jge (r : Reg) (target : Word)
  /-- JLT, opcode 0x10, R205: register and target. -/
  | jlt (r : Reg) (target : Word)
  /-- JLE, opcode 0x11, R206: register and target. -/
  | jle (r : Reg) (target : Word)
  /-- PUSH, opcode 0x12, R210: register only. -/
  | push (r : Reg)
  /-- POP, opcode 0x13, R211: register only. -/
  | pop (r : Reg)
  /-- MUL, opcode 0x14, R182: register and resolving operand. -/
  | mul (r : Reg) (o : Operand)
  /-- DIV, opcode 0x15, R183: register and resolving operand. -/
  | div (r : Reg) (o : Operand)
  /-- MOD, opcode 0x16, R184: register and resolving operand. -/
  | mod (r : Reg) (o : Operand)
  /-- WAIT, opcode 0x17, R223: resolving operand. -/
  | wait (o : Operand)
  /-- JSR, opcode 0x18, R212: target. -/
  | jsr (target : Word)
  /-- RTS, opcode 0x19, R213: no operand. -/
  | rts
  /-- SEI, opcode 0x1A, R220: no operand. -/
  | sei
  /-- CLI, opcode 0x1B, R221: no operand. -/
  | cli
  /-- RTI, opcode 0x1C, R222: no operand. -/
  | rti
  /-- LDA, opcode 0x20, R141: resolving operand. -/
  | lda (o : Operand)
  /-- LDX, opcode 0x21, R142: resolving operand. -/
  | ldx (o : Operand)
  /-- LDY, opcode 0x22, R143: resolving operand. -/
  | ldy (o : Operand)
  /-- LDZ, opcode 0x23, R144: resolving operand. -/
  | ldz (o : Operand)
  /-- STA, opcode 0x24, R161: resolving operand. -/
  | sta (o : Operand)
  /-- STX, opcode 0x25, R162: resolving operand. -/
  | stx (o : Operand)
  /-- STY, opcode 0x26, R163: resolving operand. -/
  | sty (o : Operand)
  /-- STZ, opcode 0x27, R164: resolving operand. -/
  | stz (o : Operand)
  /-- INC, opcode 0x28, R185: resolving operand. -/
  | inc (o : Operand)
  /-- DEC, opcode 0x29, R186: resolving operand. -/
  | dec (o : Operand)
  /-- LDB, opcode 0x3A, R145: resolving operand. -/
  | ldb (o : Operand)
  /-- LDC, opcode 0x3B, R146: resolving operand. -/
  | ldc (o : Operand)
  /-- LDD, opcode 0x3C, R147: resolving operand. -/
  | ldd (o : Operand)
  /-- LDE, opcode 0x3D, R148: resolving operand. -/
  | lde (o : Operand)
  /-- LDF, opcode 0x3E, R149: resolving operand. -/
  | ldf (o : Operand)
  /-- LDG, opcode 0x3F, R150: resolving operand. -/
  | ldg (o : Operand)
  /-- LDU, opcode 0x40, R151: resolving operand. -/
  | ldu (o : Operand)
  /-- LDV, opcode 0x41, R152: resolving operand. -/
  | ldv (o : Operand)
  /-- LDW, opcode 0x42, R153: resolving operand. -/
  | ldw (o : Operand)
  /-- STB, opcode 0x43, R165: resolving operand. -/
  | stb (o : Operand)
  /-- STC, opcode 0x44, R166: resolving operand. -/
  | stc (o : Operand)
  /-- STD, opcode 0x45, R167: resolving operand. -/
  | std (o : Operand)
  /-- STE, opcode 0x46, R168: resolving operand. -/
  | ste (o : Operand)
  /-- STF, opcode 0x47, R169: resolving operand. -/
  | stf (o : Operand)
  /-- STG, opcode 0x48, R170: resolving operand. -/
  | stg (o : Operand)
  /-- STU, opcode 0x49, R171: resolving operand. -/
  | stu (o : Operand)
  /-- STV, opcode 0x4A, R172: resolving operand. -/
  | stv (o : Operand)
  /-- STW, opcode 0x4B, R173: resolving operand. -/
  | stw (o : Operand)
  /-- LDH, opcode 0x4C, R154: resolving operand. -/
  | ldh (o : Operand)
  /-- LDS, opcode 0x4D, R155: resolving operand. -/
  | lds (o : Operand)
  /-- LDT, opcode 0x4E, R156: resolving operand. -/
  | ldt (o : Operand)
  /-- STH, opcode 0x4F, R174: resolving operand. -/
  | sth (o : Operand)
  /-- STS, opcode 0x50, R175: resolving operand. -/
  | sts (o : Operand)
  /-- STT, opcode 0x51, R176: resolving operand. -/
  | stt (o : Operand)
  /-- NOP, opcode 0xEE, R230: no operand. -/
  | nop
  /-- HALT, opcode 0xFF, R231: no operand. -/
  | halt
  deriving DecidableEq, Repr

end Sys2Proof
end

