-- ==== Sys2Proof/Machine/Bits.lean ====
section
/-! DEFINITION. The bit-field and byte-order helpers shared by the decoder and the machine: register
indices, the little-endian split of a word, the signed reading of a word. -/

namespace Sys2Proof

/-- The register of an index (the table of R20). -/
def Reg.ofIndex (n : BitVec 4) : Reg :=
  match n.toNat with
  | 0 => .a
  | 1 => .x
  | 2 => .y
  | 3 => .z
  | 4 => .b
  | 5 => .c
  | 6 => .d
  | 7 => .e
  | 8 => .f
  | 9 => .g
  | 10 => .h
  | 11 => .s
  | 12 => .t
  | 13 => .u
  | 14 => .v
  | _ => .w

/-- The index of a register (the table of R20). -/
def Reg.index : Reg → BitVec 4
  | .a => 0#4
  | .x => 1#4
  | .y => 2#4
  | .z => 3#4
  | .b => 4#4
  | .c => 5#4
  | .d => 6#4
  | .e => 7#4
  | .f => 8#4
  | .g => 9#4
  | .h => 10#4
  | .s => 11#4
  | .t => 12#4
  | .u => 13#4
  | .v => 14#4
  | .w => 15#4

/-- `mask4` of a register field: the register named by the low 4 bits of a byte (R22). -/
def Reg.ofField (b : Byte) : Reg := Reg.ofIndex (b.setWidth 4)

/-- `mask4` of an operand field: the register named by the low 4 bits of operand32 (R22, R85). -/
def Reg.ofOperand (v : Word) : Reg := Reg.ofIndex (v.setWidth 4)

/-- Byte `k` of a word, byte 0 the least significant (R53). -/
def byteOf (v : Word) (k : Nat) : Byte := v.extractLsb' (8 * k) 8

/-- The word `b3 || b2 || b1 || b0` of four bytes, `b0` at the lowest address (R52, R82). -/
def wordOfBytes (b0 b1 b2 b3 : Byte) : Word := b3 ++ b2 ++ b1 ++ b0

/-- The two's-complement signed reading of a word (R7). -/
def int32 (v : Word) : Int := v.toInt

end Sys2Proof
end

