-- ==== Sys2Proof/WellFormed.lean ====
section
/-! DEFINITION. Which terms of the syntax stand for an encoding. Registers, addresses and targets are
unrestricted (R91); the one check is that a reserved addressing mode carries a reserved code (R85). -/

namespace Sys2Proof

/-- A reserved mode carries a code of 0x05 to 0xFF; the codes below it have names of their own (R85). -/
def Mode.wellFormed : Mode → Bool
  | .reserved code => decide (5 ≤ code.toNat)
  | _ => true

/-- An operand is well formed when its mode is; every operand field is accepted (R91). -/
def Operand.wellFormed (o : Operand) : Bool := o.mode.wellFormed

/-- The instructions that have an encoding. -/
def Instr.wellFormed : Instr → Bool
  | .load _ o => o.wellFormed
  | .store _ o => o.wellFormed
  | .add _ o => o.wellFormed
  | .sub _ o => o.wellFormed
  | .and _ o => o.wellFormed
  | .jmp _ => true
  | .jnz _ _ => true
  | .jz _ _ => true
  | .or _ o => o.wellFormed
  | .xor _ o => o.wellFormed
  | .shl _ o => o.wellFormed
  | .shr _ o => o.wellFormed
  | .not _ => true
  | .jgt _ _ => true
  | .jge _ _ => true
  | .jlt _ _ => true
  | .jle _ _ => true
  | .push _ => true
  | .pop _ => true
  | .mul _ o => o.wellFormed
  | .div _ o => o.wellFormed
  | .mod _ o => o.wellFormed
  | .wait o => o.wellFormed
  | .jsr _ => true
  | .rts => true
  | .sei => true
  | .cli => true
  | .rti => true
  | .lda o => o.wellFormed
  | .ldx o => o.wellFormed
  | .ldy o => o.wellFormed
  | .ldz o => o.wellFormed
  | .sta o => o.wellFormed
  | .stx o => o.wellFormed
  | .sty o => o.wellFormed
  | .stz o => o.wellFormed
  | .inc o => o.wellFormed
  | .dec o => o.wellFormed
  | .ldb o => o.wellFormed
  | .ldc o => o.wellFormed
  | .ldd o => o.wellFormed
  | .lde o => o.wellFormed
  | .ldf o => o.wellFormed
  | .ldg o => o.wellFormed
  | .ldu o => o.wellFormed
  | .ldv o => o.wellFormed
  | .ldw o => o.wellFormed
  | .stb o => o.wellFormed
  | .stc o => o.wellFormed
  | .std o => o.wellFormed
  | .ste o => o.wellFormed
  | .stf o => o.wellFormed
  | .stg o => o.wellFormed
  | .stu o => o.wellFormed
  | .stv o => o.wellFormed
  | .stw o => o.wellFormed
  | .ldh o => o.wellFormed
  | .lds o => o.wellFormed
  | .ldt o => o.wellFormed
  | .sth o => o.wellFormed
  | .sts o => o.wellFormed
  | .stt o => o.wellFormed
  | .nop => true
  | .halt => true

end Sys2Proof
end

