-- ==== Sys2Proof/Decode.lean ====
section
/-! DEFINITION. The decoder, total on any bytes, and after it the encoder, both written from R81 to R94.
The opcode byte alone selects the instruction (R87); every ignored field is dropped (R83). -/

namespace Sys2Proof

/-- The 8 bytes of an instruction, `opcode` at the lowest address, under the field names of R81. -/
structure RawInstr where
  opcode : Byte
  reg : Byte
  mode : Byte
  zero : Byte
  op0 : Byte
  op1 : Byte
  op2 : Byte
  op3 : Byte
  deriving DecidableEq, Repr

/-- The bytes in address order (R81). -/
def RawInstr.bytes (r : RawInstr) : List Byte :=
  [r.opcode, r.reg, r.mode, r.zero, r.op0, r.op1, r.op2, r.op3]

/-- operand32, the little-endian field of bytes 4 to 7 (R82, R86). -/
def RawInstr.operand32 (r : RawInstr) : Word := wordOfBytes r.op0 r.op1 r.op2 r.op3

/-- The addressing mode of a mode byte; the whole byte is compared (R85). -/
def Mode.ofByte (b : Byte) : Mode :=
  match b.toNat with
  | 0 => .immediate
  | 1 => .register
  | 2 => .regIndirect
  | 3 => .memIndirect
  | 4 => .direct
  | _ => .reserved b

/-- The mode byte of an addressing mode (R85). -/
def Mode.toByte : Mode → Byte
  | .immediate => 0x00#8
  | .register => 0x01#8
  | .regIndirect => 0x02#8
  | .memIndirect => 0x03#8
  | .direct => 0x04#8
  | .reserved code => code

/-- What an opcode builds from the fields: the six format classes of R84. -/
inductive Row where
  | rm (build : Reg → Operand → Instr)
  | m (build : Operand → Instr)
  | r (build : Reg → Instr)
  | rt (build : Reg → Word → Instr)
  | t (build : Word → Instr)
  | n (i : Instr)

/-- The instruction a row builds from the 8 bytes: each class reads the fields it uses (R84). -/
def Row.apply (row : Row) (raw : RawInstr) : Instr :=
  match row with
  | .rm build => build (Reg.ofField raw.reg) ⟨Mode.ofByte raw.mode, raw.operand32⟩
  | .m build => build ⟨Mode.ofByte raw.mode, raw.operand32⟩
  | .r build => build (Reg.ofField raw.reg)
  | .rt build => build (Reg.ofField raw.reg) raw.operand32
  | .t build => build raw.operand32
  | .n i => i

/-- The opcode map of R87; `none` for the 192 reserved opcodes of R89. -/
def opcodeRow (opcode : Byte) : Option Row :=
  match opcode with
  | 0x01#8 => some (.rm .load)
  | 0x02#8 => some (.rm .store)
  | 0x03#8 => some (.rm .add)
  | 0x04#8 => some (.rm .sub)
  | 0x05#8 => some (.rm .and)
  | 0x06#8 => some (.t .jmp)
  | 0x07#8 => some (.rt .jnz)
  | 0x08#8 => some (.rt .jz)
  | 0x09#8 => some (.rm .or)
  | 0x0A#8 => some (.rm .xor)
  | 0x0B#8 => some (.rm .shl)
  | 0x0C#8 => some (.rm .shr)
  | 0x0D#8 => some (.r .not)
  | 0x0E#8 => some (.rt .jgt)
  | 0x0F#8 => some (.rt .jge)
  | 0x10#8 => some (.rt .jlt)
  | 0x11#8 => some (.rt .jle)
  | 0x12#8 => some (.r .push)
  | 0x13#8 => some (.r .pop)
  | 0x14#8 => some (.rm .mul)
  | 0x15#8 => some (.rm .div)
  | 0x16#8 => some (.rm .mod)
  | 0x17#8 => some (.m .wait)
  | 0x18#8 => some (.t .jsr)
  | 0x19#8 => some (.n .rts)
  | 0x1A#8 => some (.n .sei)
  | 0x1B#8 => some (.n .cli)
  | 0x1C#8 => some (.n .rti)
  | 0x20#8 => some (.m .lda)
  | 0x21#8 => some (.m .ldx)
  | 0x22#8 => some (.m .ldy)
  | 0x23#8 => some (.m .ldz)
  | 0x24#8 => some (.m .sta)
  | 0x25#8 => some (.m .stx)
  | 0x26#8 => some (.m .sty)
  | 0x27#8 => some (.m .stz)
  | 0x28#8 => some (.m .inc)
  | 0x29#8 => some (.m .dec)
  | 0x3A#8 => some (.m .ldb)
  | 0x3B#8 => some (.m .ldc)
  | 0x3C#8 => some (.m .ldd)
  | 0x3D#8 => some (.m .lde)
  | 0x3E#8 => some (.m .ldf)
  | 0x3F#8 => some (.m .ldg)
  | 0x40#8 => some (.m .ldu)
  | 0x41#8 => some (.m .ldv)
  | 0x42#8 => some (.m .ldw)
  | 0x43#8 => some (.m .stb)
  | 0x44#8 => some (.m .stc)
  | 0x45#8 => some (.m .std)
  | 0x46#8 => some (.m .ste)
  | 0x47#8 => some (.m .stf)
  | 0x48#8 => some (.m .stg)
  | 0x49#8 => some (.m .stu)
  | 0x4A#8 => some (.m .stv)
  | 0x4B#8 => some (.m .stw)
  | 0x4C#8 => some (.m .ldh)
  | 0x4D#8 => some (.m .lds)
  | 0x4E#8 => some (.m .ldt)
  | 0x4F#8 => some (.m .sth)
  | 0x50#8 => some (.m .sts)
  | 0x51#8 => some (.m .stt)
  | 0xEE#8 => some (.n .nop)
  | 0xFF#8 => some (.n .halt)
  | _ => none

/-- Decode the 8 bytes of an instruction; `none` is a reserved opcode (R87, R89). -/
def decodeRaw (raw : RawInstr) : Option Instr :=
  (opcodeRow raw.opcode).map fun row => row.apply raw

/-- Why a byte sequence is no instruction. -/
inductive DecodeReject where
  /-- The opcode byte is one of the 192 of R89. -/
  | reservedOpcode (opcode : Byte)
  /-- Every instruction is exactly 8 bytes (R80). -/
  | wrongLength (length : Nat)
  deriving DecidableEq, Repr

/-- The answer of the decoder. -/
inductive Decoded where
  | instr (i : Instr)
  | rejected (why : DecodeReject)
  deriving DecidableEq, Repr

/-- The decoder on any bytes, lowest address first. -/
def decode : List Byte → Decoded
  | [opcode, reg, mode, zero, op0, op1, op2, op3] =>
    match decodeRaw ⟨opcode, reg, mode, zero, op0, op1, op2, op3⟩ with
    | some i => .instr i
    | none => .rejected (.reservedOpcode opcode)
  | bs => .rejected (.wrongLength bs.length)

/-- The 8 bytes of an instruction given as the number `w` of `nbits` bits, bit 0 the least
significant bit of byte 0 (R81); bits from `nbits` on are 0. -/
def rawOfNat (nbits w : Nat) : RawInstr :=
  let v := w % 2 ^ nbits
  ⟨BitVec.ofNat 8 v, BitVec.ofNat 8 (v / 2 ^ 8), BitVec.ofNat 8 (v / 2 ^ 16), BitVec.ofNat 8 (v / 2 ^ 24),
    BitVec.ofNat 8 (v / 2 ^ 32), BitVec.ofNat 8 (v / 2 ^ 40), BitVec.ofNat 8 (v / 2 ^ 48),
    BitVec.ofNat 8 (v / 2 ^ 56)⟩

/-- The instruction the decoder reads from a table word, `none` where it rejects. -/
def decodeTableWord (nbits w : Nat) : Option Instr :=
  match decode (rawOfNat nbits w).bytes with
  | .instr i => some i
  | .rejected _ => none

/-- The canonical encoding of R94: zero in every field the instruction does not use. -/
def rawOf (opcode reg mode : Byte) (operand32 : Word) : RawInstr :=
  ⟨opcode, reg, mode, 0x00#8, byteOf operand32 0, byteOf operand32 1, byteOf operand32 2,
    byteOf operand32 3⟩

/-- The register field of a register: its index, high nibble zero (R94). -/
def Reg.toField (r : Reg) : Byte := r.index.setWidth 8

/-- Encoding of class `RM` (R84, R94). -/
def encodeRM (opcode : Byte) (r : Reg) (o : Operand) : RawInstr :=
  rawOf opcode r.toField o.mode.toByte o.operand32

/-- Encoding of class `M` (R84, R94). -/
def encodeM (opcode : Byte) (o : Operand) : RawInstr :=
  rawOf opcode 0x00#8 o.mode.toByte o.operand32

/-- Encoding of class `R` (R84, R94). -/
def encodeR (opcode : Byte) (r : Reg) : RawInstr :=
  rawOf opcode r.toField 0x00#8 0x00000000#32

/-- Encoding of class `RT` (R84, R93, R94). -/
def encodeRT (opcode : Byte) (r : Reg) (target : Word) : RawInstr :=
  rawOf opcode r.toField 0x00#8 target

/-- Encoding of class `T` (R84, R93, R94). -/
def encodeT (opcode : Byte) (target : Word) : RawInstr :=
  rawOf opcode 0x00#8 0x00#8 target

/-- Encoding of class `N` (R84, R94). -/
def encodeN (opcode : Byte) : RawInstr :=
  rawOf opcode 0x00#8 0x00#8 0x00000000#32

/-- The encoder on fields (R87 gives each opcode). -/
def encodeRaw : Instr → RawInstr
  | .load r o => encodeRM 0x01#8 r o
  | .store r o => encodeRM 0x02#8 r o
  | .add r o => encodeRM 0x03#8 r o
  | .sub r o => encodeRM 0x04#8 r o
  | .and r o => encodeRM 0x05#8 r o
  | .jmp target => encodeT 0x06#8 target
  | .jnz r target => encodeRT 0x07#8 r target
  | .jz r target => encodeRT 0x08#8 r target
  | .or r o => encodeRM 0x09#8 r o
  | .xor r o => encodeRM 0x0A#8 r o
  | .shl r o => encodeRM 0x0B#8 r o
  | .shr r o => encodeRM 0x0C#8 r o
  | .not r => encodeR 0x0D#8 r
  | .jgt r target => encodeRT 0x0E#8 r target
  | .jge r target => encodeRT 0x0F#8 r target
  | .jlt r target => encodeRT 0x10#8 r target
  | .jle r target => encodeRT 0x11#8 r target
  | .push r => encodeR 0x12#8 r
  | .pop r => encodeR 0x13#8 r
  | .mul r o => encodeRM 0x14#8 r o
  | .div r o => encodeRM 0x15#8 r o
  | .mod r o => encodeRM 0x16#8 r o
  | .wait o => encodeM 0x17#8 o
  | .jsr target => encodeT 0x18#8 target
  | .rts => encodeN 0x19#8
  | .sei => encodeN 0x1A#8
  | .cli => encodeN 0x1B#8
  | .rti => encodeN 0x1C#8
  | .lda o => encodeM 0x20#8 o
  | .ldx o => encodeM 0x21#8 o
  | .ldy o => encodeM 0x22#8 o
  | .ldz o => encodeM 0x23#8 o
  | .sta o => encodeM 0x24#8 o
  | .stx o => encodeM 0x25#8 o
  | .sty o => encodeM 0x26#8 o
  | .stz o => encodeM 0x27#8 o
  | .inc o => encodeM 0x28#8 o
  | .dec o => encodeM 0x29#8 o
  | .ldb o => encodeM 0x3A#8 o
  | .ldc o => encodeM 0x3B#8 o
  | .ldd o => encodeM 0x3C#8 o
  | .lde o => encodeM 0x3D#8 o
  | .ldf o => encodeM 0x3E#8 o
  | .ldg o => encodeM 0x3F#8 o
  | .ldu o => encodeM 0x40#8 o
  | .ldv o => encodeM 0x41#8 o
  | .ldw o => encodeM 0x42#8 o
  | .stb o => encodeM 0x43#8 o
  | .stc o => encodeM 0x44#8 o
  | .std o => encodeM 0x45#8 o
  | .ste o => encodeM 0x46#8 o
  | .stf o => encodeM 0x47#8 o
  | .stg o => encodeM 0x48#8 o
  | .stu o => encodeM 0x49#8 o
  | .stv o => encodeM 0x4A#8 o
  | .stw o => encodeM 0x4B#8 o
  | .ldh o => encodeM 0x4C#8 o
  | .lds o => encodeM 0x4D#8 o
  | .ldt o => encodeM 0x4E#8 o
  | .sth o => encodeM 0x4F#8 o
  | .sts o => encodeM 0x50#8 o
  | .stt o => encodeM 0x51#8 o
  | .nop => encodeN 0xEE#8
  | .halt => encodeN 0xFF#8

/-- The 8 bytes of an instruction, lowest address first. -/
def encode (i : Instr) : List Byte := (encodeRaw i).bytes

end Sys2Proof
end

