-- ==== Sys2Proof/Config.lean ====
section
/-! DEFINITION. What is fixed for one machine: the constants of R5, which the manual fixes, and the
values the spec leaves open, which are opaque constants nothing can evaluate. -/

namespace Sys2Proof

/-- The two readings of what follows an interrupt entry inside the same step (R121, D10). -/
inductive IrqBody where
  /-- The body of the already fetched instruction still runs, against the handler's PC. -/
  | continues
  /-- The step ends after the entry and the fetched instruction has had no effect. -/
  | abandons
  deriving DecidableEq, Repr, Inhabited

/-- VECTOR_TABLE: the address of the one interrupt handler address (R5, R61). -/
def Config.vectorTable : Word := 0x00000000#32

/-- PROG_START: the reset value of PC (R5, R61). -/
def Config.progStart : Word := 0x00001000#32

/-- STACK_BOTTOM: the lower stack boundary of the overflow checks (R5, R215). -/
def Config.stackBottom : Word := 0x00002000#32

/-- STACK_START: the reset value of SP and the bound of the underflow check (R5, R215). -/
def Config.stackStart : Word := 0x0009F000#32

/-- IE32_TIMER_DIVIDER: instruction steps per countdown decrement (R5, R250). -/
abbrev Config.timerDivider : Nat := 44100

/-- What a byte that the memory list does not mention reads as. DESIGN CHOICE, unsafe
(assumption 2): the spec leaves the launch memory open (R36, D21), and any launch memory can be
listed, so this value matters only to a run from `State.reset`, which lists nothing. -/
def Config.unlistedByte : Byte := 0x00#8

/-- IRQ_BODY (R6, R38, R121, D10): the spec leaves it open. A free value (assumption 5). -/
opaque Config.irqBody : IrqBody

/-- The value of PC after a stop by division by zero, stack overflow or stack underflow: "any
value" (R24, R248, D15). A free value, one for each value of `State.freeIndex` (assumption 6). -/
opaque Config.stopPc : Nat → Word

/-- Whether the countdown is reloaded when an interrupt entry stops on stack overflow: "any value"
(R248, D24). A free value, one for each value of `State.freeIndex` (assumption 7). -/
opaque Config.overflowReloads : Nat → Bool

end Sys2Proof
end

