-- ==== Sys2Proof/Machine/State.lean ====
section
/-! DEFINITION. The whole state of an IE32 (R20 to R37) as plain data, the reasons a step can stop, and
the state after reset. -/

namespace Sys2Proof.Machine

/-- The 16 general registers, 32 bits each, in index order (R20). None is hardwired (R21). -/
structure Regs where
  a : Word
  x : Word
  y : Word
  z : Word
  b : Word
  c : Word
  d : Word
  e : Word
  f : Word
  g : Word
  h : Word
  s : Word
  t : Word
  u : Word
  v : Word
  w : Word
  deriving DecidableEq, Repr

/-- The conditions that enter the stopped processor state (R240). The hardware records none of them
(R241); the label is the spec's own. -/
inductive StopCause where
  /-- HALT (R244). -/
  | halt
  /-- An opcode byte that is not among the 64 (R242). -/
  | reservedOpcode
  /-- DIV or MOD by zero (R243). -/
  | divideByZero
  /-- PUSH, JSR or interrupt entry at the lower stack boundary (R247). -/
  | stackOverflow
  /-- POP, RTS or RTI at the upper stack boundary (R247). -/
  | stackUnderflow
  deriving DecidableEq, Repr

/-- The run state (R29), with the cause of a stop carried beside it (R241). -/
inductive RunState where
  | running
  | stopped (cause : StopCause)
  deriving DecidableEq, Repr

/-- The timer state element (R34). No instruction reads it. -/
inductive TimerState where
  | stopped
  | running
  | expired
  deriving DecidableEq, Repr

/-- A block of addresses backed by memory: `size` bytes from `base` (R51). -/
structure Region where
  base : Nat
  size : Nat
  deriving DecidableEq, Repr

/-- Memory (R35): bytes by address, addresses strictly rising, no entry equal to what an unlisted
address reads as (`Memory.wf`). -/
abbrev Memory := List Host.Cell

/-- The state of the machine. The first twelve fields are the spec's (R20 to R35); `installed` is a
parameter of the spec carried as data (R38, R51), and `freeIndex` is the model's own. -/
structure State where
  /-- The general registers (R20). -/
  regs : Regs
  /-- The program counter (R23). -/
  pc : Word
  /-- The stack pointer (R25). -/
  sp : Word
  /-- The run state (R29). -/
  run : RunState
  /-- The interrupt-enable latch (R27). -/
  ie : Bool
  /-- The interrupt-active latch (R28). -/
  inirq : Bool
  /-- The timer enable latch (R30). -/
  tEn : Bool
  /-- The timer countdown (R31). -/
  tCount : Word
  /-- The timer reload period (R32). -/
  tPeriod : Word
  /-- The timer prescaler, 0 to 44099 between steps (R33). -/
  tPre : Fin Config.timerDivider
  /-- The timer state (R34). -/
  tState : TimerState
  /-- Memory (R35). -/
  mem : Memory
  /-- `Installed`, the byte addresses backed by memory (R51): the union of the regions. No step
  changes it. -/
  installed : List Region
  /-- The model's own counter: which of the free values of Config comes next. No instruction of the
  hardware sees it. -/
  freeIndex : Nat
  deriving DecidableEq, Repr

/-- Why the machine takes no further step. -/
inductive Fault where
  /-- Raised by `step` alone, in a state whose processor is stopped: no instruction step happens any
  more (R111, R245, D16). Safe: the spec gives such a state no successor but reset, which comes from
  outside. Entering the stopped state is not this fault; it is a next state. -/
  | processorStopped (cause : StopCause)
  deriving DecidableEq, Repr

/-- Why a step is given no meaning. -/
inductive Refusal where
  /-- Raised by `exec` for an instruction without a meaning; none is left. Safe. -/
  | notModelled (mnemonic : String)
  /-- Raised by an access or fetch whose bytes run past 0xFFFFFFFF: "The model refuses it" (R58, D2).
  Safe: nothing is claimed of a run that makes it. -/
  | pastTopOfMemory (addr : Word)
  /-- Raised by an access or fetch that touches a byte outside `Installed`: "the model refuses it"
  (R51, D1). Safe: nothing is claimed of a run that makes it. -/
  | notInstalled (addr : Word)
  deriving DecidableEq, Repr

/-- What R36 leaves open at reset, each with the default R36 gives it. -/
structure ResetParams where
  /-- RESET_IE. -/
  ie : Bool := false
  /-- RESET_INIRQ. -/
  inirq : Bool := false
  /-- RESET_T_EN. -/
  tEn : Bool := false
  /-- RESET_T_COUNT. -/
  tCount : Word := 0#32
  /-- RESET_T_PERIOD. -/
  tPeriod : Word := 0#32
  /-- RESET_T_PRE, always below 44100 (R36, D25). -/
  tPre : Fin Config.timerDivider := 0
  /-- The timer state, which has a default and no parameter of its own (R36, D27). -/
  tState : TimerState := .stopped
  deriving DecidableEq, Repr

/-- The general registers after reset, all zero (R36, R285). -/
def Regs.zero : Regs :=
  { a := 0#32, x := 0#32, y := 0#32, z := 0#32, b := 0#32, c := 0#32, d := 0#32, e := 0#32, f := 0#32,
    g := 0#32, h := 0#32, s := 0#32, t := 0#32, u := 0#32, v := 0#32, w := 0#32 }

/-- The launch state of R36 and R280 for any value of what they leave open: the latches and timer
elements, the installed addresses and the launch memory. -/
def State.launch (p : ResetParams) (installed : List Region) (mem : Memory) : State :=
  { regs := Regs.zero
    pc := Config.progStart
    sp := Config.stackStart
    run := .running
    ie := p.ie
    inirq := p.inirq
    tEn := p.tEn
    tCount := p.tCount
    tPeriod := p.tPeriod
    tPre := p.tPre
    tState := p.tState
    mem := mem
    installed := installed
    freeIndex := 0 }

/-- Every address of the 32-bit space (R50) backed by memory. -/
def Region.wholeSpace : Region := { base := 0, size := 2 ^ 32 }

/-- The machine right after reset: R36 with its defaults. The open values are named in assumptions 1
(latches and timer), 2 (memory), 3 (installed addresses) and 6 (the free-value counter). -/
def State.reset : State := State.launch {} [Region.wholeSpace] []

end Sys2Proof.Machine
end

