-- ==== Sys2Proof/Machine/Ops.lean ====
section
/-! DEFINITION. The named operations over registers, memory, the stack, the stopped state and the timer
that every instruction is written with, taking the one interrupt of the machine among them. -/

namespace Sys2Proof.Machine

/-- What cuts a step short: it ends in a state (a stop, or an interrupt entry that abandons the body),
or the model refuses it. -/
inductive Abort where
  | ended (s : State)
  | refused (r : Refusal)
  deriving DecidableEq, Repr

/-- The outcome of a step from the outcome of its stages. -/
def finish : Except Abort State → Host.Outcome State Fault Refusal
  | .ok s => .next s
  | .error (.ended s) => .next s
  | .error (.refused r) => .refused r

/-! ### Registers and control state -/

/-- `x[i]` (R8, R20). -/
def Regs.get (q : Regs) : Reg → Word
  | .a => q.a
  | .x => q.x
  | .y => q.y
  | .z => q.z
  | .b => q.b
  | .c => q.c
  | .d => q.d
  | .e => q.e
  | .f => q.f
  | .g => q.g
  | .h => q.h
  | .s => q.s
  | .t => q.t
  | .u => q.u
  | .v => q.v
  | .w => q.w

/-- `x[i] <- v` (R8); every register holds the last value written to it (R21). -/
def Regs.set (q : Regs) (r : Reg) (v : Word) : Regs :=
  match r with
  | .a => { q with a := v }
  | .x => { q with x := v }
  | .y => { q with y := v }
  | .z => { q with z := v }
  | .b => { q with b := v }
  | .c => { q with c := v }
  | .d => { q with d := v }
  | .e => { q with e := v }
  | .f => { q with f := v }
  | .g => { q with g := v }
  | .h => { q with h := v }
  | .s => { q with s := v }
  | .t => { q with t := v }
  | .u => { q with u := v }
  | .v => { q with v := v }
  | .w => { q with w := v }

/-- Read a general register of the machine. -/
def State.getReg (s : State) (r : Reg) : Word := s.regs.get r

/-- Write a general register of the machine. -/
def State.setReg (s : State) (r : Reg) (v : Word) : State := { s with regs := s.regs.set r v }

/-- `pc <- t` (R8). -/
def State.setPc (s : State) (t : Word) : State := { s with pc := t }

/-- `next`, the address of the following instruction, modulo 2^32 (R8, R24). -/
def State.nextPc (s : State) : Word := s.pc + 8#32

/-- The default advance of PC (R112). -/
def State.advance (s : State) : State := s.setPc s.nextPc

/-- `sp <- v` (R8). -/
def State.setSp (s : State) (v : Word) : State := { s with sp := v }

/-- Replace the memory. -/
def State.setMem (s : State) (m : Memory) : State := { s with mem := m }

/-- `ie <- v` (R27). -/
def State.setIe (s : State) (v : Bool) : State := { s with ie := v }

/-- `inirq <- v` (R28). -/
def State.setInirq (s : State) (v : Bool) : State := { s with inirq := v }

/-- Reset as an event in any state (R280): the launch values, memory and `Installed` untouched. The
free values that follow are fresh ones. -/
def State.resetEvent (s : State) (p : ResetParams) : State :=
  { State.launch p s.installed s.mem with freeIndex := s.freeIndex }

/-! ### The stopped processor state -/

/-- `run <- stopped`, nothing else (R242, R244). -/
def State.setStopped (s : State) (c : StopCause) : State := { s with run := .stopped c }

/-- A stop after which PC is any value (R248): the free value that comes next. -/
def State.setStoppedAnyPc (s : State) (c : StopCause) : State :=
  { s with run := .stopped c, pc := Config.stopPc s.freeIndex, freeIndex := s.freeIndex + 1 }

/-- The state `raise Stop(cause)` enters (R8): PC is unchanged for HALT and a reserved opcode, any
value for the other three causes (R24, R248). -/
def State.stop (s : State) (c : StopCause) : State :=
  match c with
  | .halt => s.setStopped .halt
  | .reservedOpcode => s.setStopped .reservedOpcode
  | .divideByZero => s.setStoppedAnyPc .divideByZero
  | .stackOverflow => s.setStoppedAnyPc .stackOverflow
  | .stackUnderflow => s.setStoppedAnyPc .stackUnderflow

/-- `raise Stop(cause)`: the step makes no further state change (R8). -/
def raiseStop {α : Type} (c : StopCause) (s : State) : Except Abort α :=
  .error (.ended (s.stop c))

/-! ### Memory -/

/-- The byte at an address; an address the list does not mention reads as `Config.unlistedByte`. -/
def Memory.read : Memory → Nat → Byte
  | [], _ => Config.unlistedByte
  | c :: m, a => if c.1 = a then c.2 else Memory.read m a

/-- Insert an entry in front of the first greater address. -/
def Memory.insert : Memory → Nat → Byte → Memory
  | [], a, v => [(a, v)]
  | c :: m, a, v => if a < c.1 then (a, v) :: c :: m else c :: Memory.insert m a v

/-- The memory without its entry at an address. -/
def Memory.erase (m : Memory) (a : Nat) : Memory := m.filter fun c => c.1 != a

/-- Write one byte, keeping the canonical form: the value an unlisted address reads as is not listed. -/
def Memory.write (m : Memory) (a : Nat) (v : Byte) : Memory :=
  if v = Config.unlistedByte then m.erase a else (m.erase a).insert a v

/-- The canonical form: addresses of the 32-bit space (R50) strictly rising, no entry equal to what an
unlisted address reads as. -/
def Memory.wf (m : Memory) : Bool :=
  decide (m.Pairwise fun c d => c.1 < d.1) &&
    m.all fun c => decide (c.1 < 2 ^ 32) && c.2 != Config.unlistedByte

/-- The little-endian word at the four bytes from `a` (R52). -/
def Memory.readWord (m : Memory) (a : Nat) : Word :=
  wordOfBytes (m.read a) (m.read (a + 1)) (m.read (a + 2)) (m.read (a + 3))

/-- Store a word little-endian on the four bytes from `a` (R53). -/
def Memory.writeWord (m : Memory) (a : Nat) (v : Word) : Memory :=
  (((m.write a (byteOf v 0)).write (a + 1) (byteOf v 1)).write (a + 2) (byteOf v 2)).write (a + 3) (byteOf v 3)

/-- Whether a region holds an address. -/
def Region.contains (r : Region) (a : Nat) : Bool := decide (r.base ≤ a) && decide (a < r.base + r.size)

/-- Whether `Installed` holds an address (R51). -/
def State.isInstalled (s : State) (a : Nat) : Bool := s.installed.any fun r => r.contains a

/-- Whether an access of `n` bytes at `addr` has a meaning: no byte past 0xFFFFFFFF (R58), every byte
installed (R51). No alignment is asked for (R56, R57). -/
def State.backs (s : State) (addr : Word) (n : Nat) : Bool :=
  decide (addr.toNat + n ≤ 2 ^ 32) && (List.range n).all fun k => s.isInstalled (addr.toNat + k)

/-- The name under which an access that `backs` turns down is refused. -/
def accessRefusal (addr : Word) (n : Nat) : Refusal :=
  if addr.toNat + n ≤ 2 ^ 32 then .notInstalled addr else .pastTopOfMemory addr

/-- The byte of memory at an address (`MemReadByte`, R54). -/
def State.readByte (s : State) (a : Nat) : Byte := s.mem.read a

/-- `MemRead(addr, 4)` (R52). It changes no state (R60). -/
def memRead (addr : Word) (s : State) : Except Abort Word :=
  if s.backs addr 4 then .ok (s.mem.readWord addr.toNat)
  else .error (.refused (accessRefusal addr 4))

/-- `MemWrite(addr, 4, v)` (R53). -/
def memWrite (addr : Word) (v : Word) (s : State) : Except Abort State :=
  if s.backs addr 4 then .ok (s.setMem (s.mem.writeWord addr.toNat v))
  else .error (.refused (accessRefusal addr 4))

/-- The 8 bytes from an address on (R54). -/
def Memory.readRaw (m : Memory) (a : Nat) : RawInstr :=
  ⟨m.read a, m.read (a + 1), m.read (a + 2), m.read (a + 3), m.read (a + 4), m.read (a + 5), m.read (a + 6),
    m.read (a + 7)⟩

/-- Store 8 bytes from an address on. -/
def Memory.writeRaw (m : Memory) (a : Nat) (raw : RawInstr) : Memory :=
  (((((((m.write a raw.opcode).write (a + 1) raw.reg).write (a + 2) raw.mode).write (a + 3) raw.zero).write
    (a + 4) raw.op0).write (a + 5) raw.op1).write (a + 6) raw.op2).write (a + 7) raw.op3

/-- Instruction fetch: the 8 bytes at `pc`, from the memory of data accesses (R54, R57, R64). -/
def fetch (s : State) : Except Abort RawInstr :=
  if s.backs s.pc 8 then .ok (s.mem.readRaw s.pc.toNat)
  else .error (.refused (accessRefusal s.pc 8))

/-! ### The stack -/

/-- Decrement SP by four and store at the new top (R214, R253, after the check). -/
def pushUnchecked (v : Word) (s : State) : Except Abort State :=
  memWrite (s.sp - 4#32) v (s.setSp (s.sp - 4#32))

/-- `Push` of PUSH and JSR (R214): overflow when SP is below STACK_BOTTOM + 4, unsigned. -/
def push (v : Word) (s : State) : Except Abort State :=
  if s.sp.toNat < (Config.stackBottom + 4#32).toNat then raiseStop .stackOverflow s
  else pushUnchecked v s

/-- `PushIrq` of interrupt entry (R253): overflow when SP is at most STACK_BOTTOM, unsigned. -/
def pushIrq (v : Word) (s : State) : Except Abort State :=
  if s.sp.toNat ≤ Config.stackBottom.toNat then raiseStop .stackOverflow s
  else pushUnchecked v s

/-- `Pop` of POP, RTS and RTI (R214): underflow when SP is at least STACK_START, unsigned. The popped
value and the state with SP moved. -/
def pop (s : State) : Except Abort (Word × State) :=
  if Config.stackStart.toNat ≤ s.sp.toNat then raiseStop .stackUnderflow s
  else do
    let v ← memRead s.sp s
    .ok (v, s.setSp (s.sp + 4#32))

/-! ### The timer and the interrupt -/

/-- Taking the timer interrupt (R254): PC is pushed, then loaded with the word at VECTOR_TABLE, and the
interrupt-active latch is set. Nothing else is saved and `ie` stays (D17, D18). -/
def interruptEntry (s : State) : Except Abort State := do
  let s1 ← pushIrq s.pc s
  let handler ← memRead Config.vectorTable s1
  .ok ((s1.setPc handler).setInirq true)

/-- Returning from the interrupt (R222): PC is popped and the interrupt-active latch is cleared. -/
def interruptReturn (s : State) : Except Abort State := do
  let (v, s1) ← pop s
  .ok ((s1.setPc v).setInirq false)

/-- The reload of the countdown (R250, step 3). -/
def State.timerReload (s : State) : State :=
  if s.tEn then { s with tCount := s.tPeriod } else s

/-- Whether the reload still happens after an entry that stops on overflow is any value (R248, D24). -/
def State.overflowReload (s : State) : State :=
  { s with
    tCount := if Config.overflowReloads s.freeIndex then s.timerReload.tCount else s.tCount
    freeIndex := s.freeIndex + 1 }

/-- The expiry (R250, from "the decrement reached zero"): the timer state becomes expired, the interrupt
is entered when `ie` is set and `inirq` clear, the countdown is reloaded. No expiry is remembered (R255). -/
def timerExpiry (s : State) : Except Abort (State × Bool) :=
  let s1 := { s with tState := .expired }
  if s1.ie = true ∧ s1.inirq = false then
    match interruptEntry s1 with
    | .ok s2 => .ok (s2.timerReload, true)
    | .error (.ended t) => .error (.ended t.overflowReload)
    | .error (.refused r) => .error (.refused r)
  else .ok (s1.timerReload, false)

/-- `TimerStep()` (R250); the Bool says whether an interrupt was entered. -/
def timerStep (s : State) : Except Abort (State × Bool) :=
  if s.tEn = false then .ok (s, false)
  else if s.tPre.val + 1 < Config.timerDivider then .ok ({ s with tPre := s.tPre + 1 }, false)
  else
    let s1 := { s with tPre := 0 }
    if s1.tCount = 0#32 then .ok (s1, false)
    else
      let s2 := { s1 with tCount := s1.tCount - 1#32 }
      if s2.tCount ≠ 0#32 then .ok (s2, false)
      else timerExpiry s2

/-- Stage 3 of a step under one reading of IRQ_BODY, and the early return of R110: the state the body
runs in, unless the step ends before it (R121). -/
def startBodyWith (irqBody : IrqBody) (s : State) : Except Abort State :=
  match timerStep s with
  | .error e => .error e
  | .ok (t, false) => .ok t
  | .ok (t, true) =>
    match irqBody with
    | .continues => .ok t
    | .abandons => .error (.ended t)

/-- Stage 3 of a step for this machine's IRQ_BODY. -/
def startBody (s : State) : Except Abort State := startBodyWith Config.irqBody s

/-- Stages 3 and 4 of a step for an instruction that resolves no read-style operand (R110). -/
def runBody (s : State) (body : State → Except Abort State) : Host.Outcome State Fault Refusal :=
  finish do
    let t ← startBody s
    body t

/-! ### The timer step seen without the interrupt -/

/-- Whether this step's timer step decrements the countdown from 1 to 0 (R252). -/
def State.timerExpires (s : State) : Bool :=
  s.tEn && decide (s.tPre.val + 1 = Config.timerDivider) && decide (s.tCount = 1#32)

/-- The delivery condition of R252: an interrupt is entered in this step. -/
def State.interruptDue (s : State) : Bool := s.timerExpires && s.ie && !s.inirq

/-- The prescaler after a timer step (R250). -/
def State.preAfterTimer (s : State) : Fin Config.timerDivider :=
  if s.tEn = false then s.tPre
  else if s.tPre.val + 1 < Config.timerDivider then s.tPre + 1
  else 0

/-- The countdown after a timer step that does not stop the processor (R250). -/
def State.countAfterTimer (s : State) : Word :=
  if s.tEn = false ∨ s.tPre.val + 1 < Config.timerDivider ∨ s.tCount = 0#32 then s.tCount
  else if s.tCount = 1#32 then s.tPeriod
  else s.tCount - 1#32

/-- The state after a timer step that enters no interrupt: three timer elements, nothing else (R250). -/
def State.afterTimer (s : State) : State :=
  { s with
    tPre := s.preAfterTimer
    tCount := s.countAfterTimer
    tState := if s.timerExpires then .expired else s.tState }

end Sys2Proof.Machine
end

