-- ==== Sys2Proof/Machine/Operands.lean ====
section
/-! DEFINITION. The two readings of the addressing-mode byte: `resolve` for operands that are read
(R114, R115) and `store_target` for destinations (R116), and the target of INC and DEC (R120). -/

namespace Sys2Proof.Machine

/-- The offset contribution of a register-indirect operand: the field with its low 4 bits cleared, not
shifted (R86, R118). -/
def regIndOffset (operand32 : Word) : Word := operand32 &&& 0xFFFFFFF0#32

/-- `ea_regind` (R118): base register plus offset, modulo 2^32. The base register is not modified. -/
def eaRegInd (operand32 : Word) (s : State) : Word :=
  s.getReg (Reg.ofOperand operand32) + regIndOffset operand32

/-- Read-style resolution (R114); a reserved mode reads 0 and makes no access (R115). -/
def resolve (o : Operand) (s : State) : Except Abort Word :=
  match o.mode with
  | .immediate => .ok o.operand32
  | .register => .ok (s.getReg (Reg.ofOperand o.operand32))
  | .regIndirect => memRead (eaRegInd o.operand32 s) s
  | .memIndirect => memRead o.operand32 s
  | .direct => memRead o.operand32 s
  | .reserved _ => .ok 0#32

/-- Store-style resolution (R116): the destination address. Register mode gives the whole field, not a
register's contents (R117, C8). -/
def storeTarget (o : Operand) (s : State) : Except Abort Word :=
  match o.mode with
  | .immediate => .ok o.operand32
  | .register => .ok o.operand32
  | .regIndirect => .ok (eaRegInd o.operand32 s)
  | .memIndirect => memRead o.operand32 s
  | .direct => .ok o.operand32
  | .reserved _ => .ok o.operand32

/-- What INC and DEC change: a register or a word of memory (R120). -/
inductive Target where
  | reg (r : Reg)
  | mem (addr : Word)
  deriving DecidableEq, Repr

/-- The target of INC and DEC (R120, C3). -/
def incDecTarget (o : Operand) (s : State) : Except Abort Target :=
  match o.mode with
  | .register => .ok (.reg (Reg.ofOperand o.operand32))
  | _ => do
    let addr ← storeTarget o s
    .ok (.mem addr)

/-- Read the selected target, apply `f`, write it back: for memory a read and then a write (R60, R120). -/
def updateTarget (f : Word → Word) (target : Target) (s : State) : Except Abort State :=
  match target with
  | .reg r => .ok (s.setReg r (f (s.getReg r)))
  | .mem addr => do
    let v ← memRead addr s
    memWrite addr (f v) s

/-- Stages 2 to 4 of a step for an instruction that resolves a read-style operand: the value is
obtained before the timer step, the body runs after it (R110, R122, R124). -/
def runRead (o : Operand) (s : State) (body : Word → State → Except Abort State) :
    Host.Outcome State Fault Refusal :=
  finish do
    let v ← resolve o s
    let t ← startBody s
    body v t

end Sys2Proof.Machine
end

