-- ==== Sys2Proof/Machine/Arithmetic.lean ====
section
/-! DEFINITION. Arithmetic, R180 to R187: unsigned 32-bit, wrapping modulo 2^32, no flag. -/

namespace Sys2Proof.Machine

/-- The body of an instruction that combines a register with its operand and writes the register:
`x[r] <- f(x[r], val)`, then the default advance of PC (R180, R190, R196). -/
def combineBody (f : Word → Word → Word) (r : Reg) (v : Word) (s : State) : Except Abort State :=
  .ok (s.setReg r (f (s.getReg r) v)).advance

/-- The body of DIV and MOD: a zero divisor stops before the register is written (R183, R243, R248). -/
def divideBody (f : Word → Word → Word) (r : Reg) (v : Word) (s : State) : Except Abort State :=
  if v = 0#32 then raiseStop .divideByZero s else combineBody f r v s

/-- The body of INC and DEC: the selected register or memory word is changed, then the default advance
of PC (R185, R186). -/
def incDecBody (f : Word → Word) (o : Operand) (s : State) : Except Abort State := do
  let target ← incDecTarget o s
  let t ← updateTarget f target s
  .ok t.advance

/-- ADD R, operand (R180). -/
def execAdd (r : Reg) (o : Operand) (s : State) : Host.Outcome State Fault Refusal :=
  runRead o s (combineBody (fun a b => a + b) r)

/-- SUB R, operand (R181): the operand is subtracted from R. -/
def execSub (r : Reg) (o : Operand) (s : State) : Host.Outcome State Fault Refusal :=
  runRead o s (combineBody (fun a b => a - b) r)

/-- MUL R, operand (R182): the low 32 bits of the product. -/
def execMul (r : Reg) (o : Operand) (s : State) : Host.Outcome State Fault Refusal :=
  runRead o s (combineBody (fun a b => a * b) r)

/-- DIV R, operand (R183): unsigned quotient rounded toward zero. -/
def execDiv (r : Reg) (o : Operand) (s : State) : Host.Outcome State Fault Refusal :=
  runRead o s (divideBody BitVec.udiv r)

/-- MOD R, operand (R184): unsigned remainder. -/
def execMod (r : Reg) (o : Operand) (s : State) : Host.Outcome State Fault Refusal :=
  runRead o s (divideBody BitVec.umod r)

/-- INC operand (R185). -/
def execInc (o : Operand) (s : State) : Host.Outcome State Fault Refusal :=
  runBody s (incDecBody (fun v => v + 1#32) o)

/-- DEC operand (R186). -/
def execDec (o : Operand) (s : State) : Host.Outcome State Fault Refusal :=
  runBody s (incDecBody (fun v => v - 1#32) o)

end Sys2Proof.Machine
end

