-- ==== Sys2Proof/Machine/Flags.lean ====
section
/-! DEFINITION. IE32 has no flags register, no condition code, no carry and no overflow indication
(R26, R187), so no instruction computes a flag. What other machines read from flags, the conditional
branches here compute from one register: the six tests of R207. -/

namespace Sys2Proof.Machine

/-- JNZ: R != 0 (R201, R207). -/
def testNotZero (v : Word) : Bool := decide (v ≠ 0#32)

/-- JZ: R == 0 (R202, R207). -/
def testZero (v : Word) : Bool := decide (v = 0#32)

/-- JGT: int32(R) > 0 (R203, R207). -/
def testPositive (v : Word) : Bool := decide (int32 v > 0)

/-- JGE: int32(R) >= 0 (R204, R207). -/
def testNotNegative (v : Word) : Bool := decide (int32 v ≥ 0)

/-- JLT: int32(R) < 0 (R205, R207). -/
def testNegative (v : Word) : Bool := decide (int32 v < 0)

/-- JLE: int32(R) <= 0 (R206, R207). -/
def testNotPositive (v : Word) : Bool := decide (int32 v ≤ 0)

end Sys2Proof.Machine
end

