-- ==== Sys2Proof/Machine/Branches.lean ====
section
/-! DEFINITION. Branches, R200 to R207: absolute targets, one register tested against zero. -/

namespace Sys2Proof.Machine

/-- The body of a conditional branch: the target when the test of the register holds, else the next
instruction (R201). The target is loaded unchecked (R207). -/
def branchBody (test : Word → Bool) (r : Reg) (target : Word) (s : State) : Except Abort State :=
  .ok (if test (s.getReg r) then s.setPc target else s.advance)

/-- JMP target (R200). -/
def execJmp (target : Word) (s : State) : Host.Outcome State Fault Refusal :=
  runBody s fun t => .ok (t.setPc target)

/-- JNZ R, target (R201). -/
def execJnz (r : Reg) (target : Word) (s : State) : Host.Outcome State Fault Refusal :=
  runBody s (branchBody testNotZero r target)

/-- JZ R, target (R202). -/
def execJz (r : Reg) (target : Word) (s : State) : Host.Outcome State Fault Refusal :=
  runBody s (branchBody testZero r target)

/-- JGT R, target (R203). -/
def execJgt (r : Reg) (target : Word) (s : State) : Host.Outcome State Fault Refusal :=
  runBody s (branchBody testPositive r target)

/-- JGE R, target (R204). -/
def execJge (r : Reg) (target : Word) (s : State) : Host.Outcome State Fault Refusal :=
  runBody s (branchBody testNotNegative r target)

/-- JLT R, target (R205). -/
def execJlt (r : Reg) (target : Word) (s : State) : Host.Outcome State Fault Refusal :=
  runBody s (branchBody testNegative r target)

/-- JLE R, target (R206). -/
def execJle (r : Reg) (target : Word) (s : State) : Host.Outcome State Fault Refusal :=
  runBody s (branchBody testNotPositive r target)

end Sys2Proof.Machine
end

