-- ==== Sys2Proof/Machine/DataMovement.lean ====
section
/-! DEFINITION. Data movement, R140 to R156: LOAD and the sixteen dedicated loads. -/

namespace Sys2Proof.Machine

/-- The body all loads share: `x[r] <- val`, then the default advance of PC (R140). -/
def loadBody (r : Reg) (v : Word) (s : State) : Except Abort State := .ok (s.setReg r v).advance

/-- LOAD R, operand (R140). -/
def execLoad (r : Reg) (o : Operand) (s : State) : Host.Outcome State Fault Refusal :=
  runRead o s (loadBody r)

/-- LDA operand (R141). -/
def execLda (o : Operand) (s : State) : Host.Outcome State Fault Refusal :=
  runRead o s (loadBody .a)

/-- LDX operand (R142). -/
def execLdx (o : Operand) (s : State) : Host.Outcome State Fault Refusal :=
  runRead o s (loadBody .x)

/-- LDY operand (R143). -/
def execLdy (o : Operand) (s : State) : Host.Outcome State Fault Refusal :=
  runRead o s (loadBody .y)

/-- LDZ operand (R144). -/
def execLdz (o : Operand) (s : State) : Host.Outcome State Fault Refusal :=
  runRead o s (loadBody .z)

/-- LDB operand (R145). -/
def execLdb (o : Operand) (s : State) : Host.Outcome State Fault Refusal :=
  runRead o s (loadBody .b)

/-- LDC operand (R146). -/
def execLdc (o : Operand) (s : State) : Host.Outcome State Fault Refusal :=
  runRead o s (loadBody .c)

/-- LDD operand (R147). -/
def execLdd (o : Operand) (s : State) : Host.Outcome State Fault Refusal :=
  runRead o s (loadBody .d)

/-- LDE operand (R148). -/
def execLde (o : Operand) (s : State) : Host.Outcome State Fault Refusal :=
  runRead o s (loadBody .e)

/-- LDF operand (R149). -/
def execLdf (o : Operand) (s : State) : Host.Outcome State Fault Refusal :=
  runRead o s (loadBody .f)

/-- LDG operand (R150). -/
def execLdg (o : Operand) (s : State) : Host.Outcome State Fault Refusal :=
  runRead o s (loadBody .g)

/-- LDU operand (R151). -/
def execLdu (o : Operand) (s : State) : Host.Outcome State Fault Refusal :=
  runRead o s (loadBody .u)

/-- LDV operand (R152). -/
def execLdv (o : Operand) (s : State) : Host.Outcome State Fault Refusal :=
  runRead o s (loadBody .v)

/-- LDW operand (R153). -/
def execLdw (o : Operand) (s : State) : Host.Outcome State Fault Refusal :=
  runRead o s (loadBody .w)

/-- LDH operand (R154). -/
def execLdh (o : Operand) (s : State) : Host.Outcome State Fault Refusal :=
  runRead o s (loadBody .h)

/-- LDS operand (R155). -/
def execLds (o : Operand) (s : State) : Host.Outcome State Fault Refusal :=
  runRead o s (loadBody .s)

/-- LDT operand (R156). -/
def execLdt (o : Operand) (s : State) : Host.Outcome State Fault Refusal :=
  runRead o s (loadBody .t)

end Sys2Proof.Machine
end

