-- ==== Sys2Proof/Machine/InterruptTimer.lean ====
section
/-! DEFINITION. Interrupt and timer control, R220 to R223. On IE32 SEI enables delivery and CLI disables
it. No instruction reaches the timer elements (R30 to R32). -/

namespace Sys2Proof.Machine

/-- SEI (R220): the timer step of the same step has already run with the old latch. -/
def execSei (s : State) : Host.Outcome State Fault Refusal :=
  runBody s fun t => .ok (t.setIe true).advance

/-- CLI (R221). -/
def execCli (s : State) : Host.Outcome State Fault Refusal :=
  runBody s fun t => .ok (t.setIe false).advance

/-- RTI (R222). -/
def execRti (s : State) : Host.Outcome State Fault Refusal :=
  runBody s interruptReturn

/-- WAIT operand (R223): the operand is resolved, and the waiting changes nothing but PC; there is no
time in the model (D20). -/
def execWait (o : Operand) (s : State) : Host.Outcome State Fault Refusal :=
  runRead o s fun _ t => .ok t.advance

end Sys2Proof.Machine
end

