-- ==== Sys2Proof/Machine/LoadStore.lean ====
section
/-! DEFINITION. The stores, R160 to R176: STORE and the sixteen dedicated stores. -/

namespace Sys2Proof.Machine

/-- The body all stores share: `MemWrite(store_target(mode, operand32), 4, x[r])`, the destination
computed inside the body (R116, R160), then the default advance of PC. -/
def storeBody (r : Reg) (o : Operand) (s : State) : Except Abort State := do
  let addr ← storeTarget o s
  let t ← memWrite addr (s.getReg r) s
  .ok t.advance

/-- STORE R, operand (R160). -/
def execStore (r : Reg) (o : Operand) (s : State) : Host.Outcome State Fault Refusal :=
  runBody s (storeBody r o)

/-- STA operand (R161). -/
def execSta (o : Operand) (s : State) : Host.Outcome State Fault Refusal :=
  runBody s (storeBody .a o)

/-- STX operand (R162). -/
def execStx (o : Operand) (s : State) : Host.Outcome State Fault Refusal :=
  runBody s (storeBody .x o)

/-- STY operand (R163). -/
def execSty (o : Operand) (s : State) : Host.Outcome State Fault Refusal :=
  runBody s (storeBody .y o)

/-- STZ operand (R164). -/
def execStz (o : Operand) (s : State) : Host.Outcome State Fault Refusal :=
  runBody s (storeBody .z o)

/-- STB operand (R165). -/
def execStb (o : Operand) (s : State) : Host.Outcome State Fault Refusal :=
  runBody s (storeBody .b o)

/-- STC operand (R166). -/
def execStc (o : Operand) (s : State) : Host.Outcome State Fault Refusal :=
  runBody s (storeBody .c o)

/-- STD operand (R167). -/
def execStd (o : Operand) (s : State) : Host.Outcome State Fault Refusal :=
  runBody s (storeBody .d o)

/-- STE operand (R168). -/
def execSte (o : Operand) (s : State) : Host.Outcome State Fault Refusal :=
  runBody s (storeBody .e o)

/-- STF operand (R169). -/
def execStf (o : Operand) (s : State) : Host.Outcome State Fault Refusal :=
  runBody s (storeBody .f o)

/-- STG operand (R170). -/
def execStg (o : Operand) (s : State) : Host.Outcome State Fault Refusal :=
  runBody s (storeBody .g o)

/-- STU operand (R171). -/
def execStu (o : Operand) (s : State) : Host.Outcome State Fault Refusal :=
  runBody s (storeBody .u o)

/-- STV operand (R172). -/
def execStv (o : Operand) (s : State) : Host.Outcome State Fault Refusal :=
  runBody s (storeBody .v o)

/-- STW operand (R173). -/
def execStw (o : Operand) (s : State) : Host.Outcome State Fault Refusal :=
  runBody s (storeBody .w o)

/-- STH operand (R174). -/
def execSth (o : Operand) (s : State) : Host.Outcome State Fault Refusal :=
  runBody s (storeBody .h o)

/-- STS operand (R175). -/
def execSts (o : Operand) (s : State) : Host.Outcome State Fault Refusal :=
  runBody s (storeBody .s o)

/-- STT operand (R176). -/
def execStt (o : Operand) (s : State) : Host.Outcome State Fault Refusal :=
  runBody s (storeBody .t o)

end Sys2Proof.Machine
end

