-- ==== Sys2Proof/Machine/Logical.lean ====
section
/-! DEFINITION. Logical, R190 to R193: bitwise on all 32 bits. -/

namespace Sys2Proof.Machine

/-- AND R, operand (R190). -/
def execAnd (r : Reg) (o : Operand) (s : State) : Host.Outcome State Fault Refusal :=
  runRead o s (combineBody (fun a b => a &&& b) r)

/-- OR R, operand (R191). -/
def execOr (r : Reg) (o : Operand) (s : State) : Host.Outcome State Fault Refusal :=
  runRead o s (combineBody (fun a b => a ||| b) r)

/-- XOR R, operand (R192). -/
def execXor (r : Reg) (o : Operand) (s : State) : Host.Outcome State Fault Refusal :=
  runRead o s (combineBody (fun a b => a ^^^ b) r)

/-- NOT R (R193): no operand is resolved. -/
def execNot (r : Reg) (s : State) : Host.Outcome State Fault Refusal :=
  runBody s fun t => .ok (t.setReg r (~~~ t.getReg r)).advance

end Sys2Proof.Machine
end

