-- ==== Sys2Proof/Machine/Shifts.lean ====
section
/-! DEFINITION. Shifts, R196 and R197: logical, the count a full 32-bit value that is not reduced. -/

namespace Sys2Proof.Machine

/-- Left shift: zeros enter at bit 0; a count of 32 or more gives 0 (R196, D14). -/
def shiftLeft (a count : Word) : Word :=
  if count.toNat < 32 then BitVec.ofNat 32 (a.toNat * 2 ^ count.toNat) else 0#32

/-- Logical right shift: zeros enter at bit 31; a count of 32 or more gives 0 (R197, D14). -/
def shiftRight (a count : Word) : Word :=
  if count.toNat < 32 then BitVec.ofNat 32 (a.toNat / 2 ^ count.toNat) else 0#32

/-- SHL R, operand (R196). -/
def execShl (r : Reg) (o : Operand) (s : State) : Host.Outcome State Fault Refusal :=
  runRead o s (combineBody shiftLeft r)

/-- SHR R, operand (R197). -/
def execShr (r : Reg) (o : Operand) (s : State) : Host.Outcome State Fault Refusal :=
  runRead o s (combineBody shiftRight r)

end Sys2Proof.Machine
end

