-- ==== Sys2Proof/Machine/SubroutineStack.lean ====
section
/-! DEFINITION. Subroutine and stack, R210 to R215. -/

namespace Sys2Proof.Machine

/-- PUSH R (R210). -/
def execPush (r : Reg) (s : State) : Host.Outcome State Fault Refusal :=
  runBody s fun t => do
    let t1 ← push (t.getReg r) t
    .ok t1.advance

/-- POP R (R211). -/
def execPop (r : Reg) (s : State) : Host.Outcome State Fault Refusal :=
  runBody s fun t => do
    let (v, t1) ← pop t
    .ok (t1.setReg r v).advance

/-- JSR target (R212): the return address is that of the next instruction. -/
def execJsr (target : Word) (s : State) : Host.Outcome State Fault Refusal :=
  runBody s fun t => do
    let t1 ← push t.nextPc t
    .ok (t1.setPc target)

/-- RTS (R213): the popped word is loaded unchecked; the interrupt-active latch is not touched. -/
def execRts (s : State) : Host.Outcome State Fault Refusal :=
  runBody s fun t => do
    let (v, t1) ← pop t
    .ok (t1.setPc v)

end Sys2Proof.Machine
end

