-- ==== Sys2Proof/Machine/System.lean ====
section
/-! DEFINITION. System, R230 and R231, and the step of a reserved opcode, R242. -/

namespace Sys2Proof.Machine

/-- NOP (R230). -/
def execNop (s : State) : Host.Outcome State Fault Refusal :=
  runBody s fun t => .ok t.advance

/-- HALT (R231): the stopped processor state, PC not advanced. -/
def execHalt (s : State) : Host.Outcome State Fault Refusal :=
  runBody s (raiseStop .halt)

/-- A reserved opcode (R242): no operand is resolved, the timer step runs, then the processor stops with
PC where it is. -/
def execReservedOpcode (s : State) : Host.Outcome State Fault Refusal :=
  runBody s (raiseStop .reservedOpcode)

end Sys2Proof.Machine
end

