-- ==== Sys2Proof/Machine/Dispatch.lean ====
section
/-! DEFINITION. The meaning of each instruction, one arm per constructor (R87). -/

namespace Sys2Proof.Machine

def exec (i : Instr) (s : State) : Host.Outcome State Fault Refusal :=
  match i with
  | .load r o => Sys2Proof.Machine.execLoad r o s
  | .store r o => Sys2Proof.Machine.execStore r o s
  | .add r o => Sys2Proof.Machine.execAdd r o s
  | .sub r o => Sys2Proof.Machine.execSub r o s
  | .and r o => Sys2Proof.Machine.execAnd r o s
  | .jmp target => Sys2Proof.Machine.execJmp target s
  | .jnz r target => Sys2Proof.Machine.execJnz r target s
  | .jz r target => Sys2Proof.Machine.execJz r target s
  | .or r o => Sys2Proof.Machine.execOr r o s
  | .xor r o => Sys2Proof.Machine.execXor r o s
  | .shl r o => Sys2Proof.Machine.execShl r o s
  | .shr r o => Sys2Proof.Machine.execShr r o s
  | .not r => Sys2Proof.Machine.execNot r s
  | .jgt r target => Sys2Proof.Machine.execJgt r target s
  | .jge r target => Sys2Proof.Machine.execJge r target s
  | .jlt r target => Sys2Proof.Machine.execJlt r target s
  | .jle r target => Sys2Proof.Machine.execJle r target s
  | .push r => Sys2Proof.Machine.execPush r s
  | .pop r => Sys2Proof.Machine.execPop r s
  | .mul r o => Sys2Proof.Machine.execMul r o s
  | .div r o => Sys2Proof.Machine.execDiv r o s
  | .mod r o => Sys2Proof.Machine.execMod r o s
  | .wait o => Sys2Proof.Machine.execWait o s
  | .jsr target => Sys2Proof.Machine.execJsr target s
  | .rts => Sys2Proof.Machine.execRts s
  | .sei => Sys2Proof.Machine.execSei s
  | .cli => Sys2Proof.Machine.execCli s
  | .rti => Sys2Proof.Machine.execRti s
  | .lda o => Sys2Proof.Machine.execLda o s
  | .ldx o => Sys2Proof.Machine.execLdx o s
  | .ldy o => Sys2Proof.Machine.execLdy o s
  | .ldz o => Sys2Proof.Machine.execLdz o s
  | .sta o => Sys2Proof.Machine.execSta o s
  | .stx o => Sys2Proof.Machine.execStx o s
  | .sty o => Sys2Proof.Machine.execSty o s
  | .stz o => Sys2Proof.Machine.execStz o s
  | .inc o => Sys2Proof.Machine.execInc o s
  | .dec o => Sys2Proof.Machine.execDec o s
  | .ldb o => Sys2Proof.Machine.execLdb o s
  | .ldc o => Sys2Proof.Machine.execLdc o s
  | .ldd o => Sys2Proof.Machine.execLdd o s
  | .lde o => Sys2Proof.Machine.execLde o s
  | .ldf o => Sys2Proof.Machine.execLdf o s
  | .ldg o => Sys2Proof.Machine.execLdg o s
  | .ldu o => Sys2Proof.Machine.execLdu o s
  | .ldv o => Sys2Proof.Machine.execLdv o s
  | .ldw o => Sys2Proof.Machine.execLdw o s
  | .stb o => Sys2Proof.Machine.execStb o s
  | .stc o => Sys2Proof.Machine.execStc o s
  | .std o => Sys2Proof.Machine.execStd o s
  | .ste o => Sys2Proof.Machine.execSte o s
  | .stf o => Sys2Proof.Machine.execStf o s
  | .stg o => Sys2Proof.Machine.execStg o s
  | .stu o => Sys2Proof.Machine.execStu o s
  | .stv o => Sys2Proof.Machine.execStv o s
  | .stw o => Sys2Proof.Machine.execStw o s
  | .ldh o => Sys2Proof.Machine.execLdh o s
  | .lds o => Sys2Proof.Machine.execLds o s
  | .ldt o => Sys2Proof.Machine.execLdt o s
  | .sth o => Sys2Proof.Machine.execSth o s
  | .sts o => Sys2Proof.Machine.execSts o s
  | .stt o => Sys2Proof.Machine.execStt o s
  | .nop => Sys2Proof.Machine.execNop s
  | .halt => Sys2Proof.Machine.execHalt s

end Sys2Proof.Machine
end

