-- ==== Sys2Proof/Machine/Step.lean ====
section
/-! DEFINITION. One step of the machine (R110), and how an instruction is placed where it is fetched. -/

namespace Sys2Proof.Machine

/-- One instruction step (R110), taken only while the processor runs; a stopped processor takes none
(R111, R245). -/
def step (s : State) : Host.Outcome State Fault Refusal :=
  match s.run with
  | .stopped c => .fault (.processorStopped c)
  | .running =>
    match fetch s with
    | .error e => finish (.error e)
    | .ok raw =>
      match decodeRaw raw with
      | some i => exec i s
      | none => execReservedOpcode s

/-- The state with the 8 bytes of the number `w` (R81) stored where the next step fetches. Nothing but
those 8 bytes changes; it stands for the load of a program from outside (assumption 4). -/
def State.withFetchWord (s : State) (nbits w : Nat) : State :=
  s.setMem (s.mem.writeRaw s.pc.toNat (rawOfNat nbits w))

end Sys2Proof.Machine
end

