-- ==== Sys2Proof/Safety.lean ====
section
/-! DEFINITION. What counts as a safe run, and the invariants of the machine, in the terms claims use. -/

namespace Sys2Proof.Machine

/-- The causes R246 calls faults: every stop but HALT. -/
def StopCause.isFault : StopCause → Bool
  | .halt => false
  | _ => true

/-- The run ended normally: the state is the result of the program (R246). -/
def State.normalEnd (s : State) : Prop := s.run = .stopped .halt

/-- The processor stopped for a fault cause; the state is not a result to be read (R246). -/
def State.faultStopped (s : State) : Prop := ∃ c, c.isFault = true ∧ s.run = .stopped c

/-- `k` steps from `s` meet neither a fault stop nor an access the model refuses. -/
def safeFor (k : Nat) (s : State) : Prop :=
  ∀ j, j ≤ k →
    (∀ t, Sys2Proof.core.run j s = .next t → ¬ t.faultStopped) ∧
    (∀ r, Sys2Proof.core.run j s ≠ .refused r)

/-- SP is a multiple of 4 between STACK_BOTTOM and STACK_START (R25, R215). -/
def State.stackInv (s : State) : Prop :=
  s.sp.toNat % 4 = 0 ∧ 0x2000 ≤ s.sp.toNat ∧ s.sp.toNat ≤ 0x9F000

/-- The invariant of the machine: memory in its canonical form and the stack invariant. -/
def State.Inv (s : State) : Prop := s.mem.wf = true ∧ s.stackInv

/-- The read-style operand an instruction resolves before the timer step: the class "reads" of R113. -/
def readOperand : Instr → Option Operand
  | .load _ o => some o
  | .store _ _ => none
  | .add _ o => some o
  | .sub _ o => some o
  | .and _ o => some o
  | .jmp _ => none
  | .jnz _ _ => none
  | .jz _ _ => none
  | .or _ o => some o
  | .xor _ o => some o
  | .shl _ o => some o
  | .shr _ o => some o
  | .not _ => none
  | .jgt _ _ => none
  | .jge _ _ => none
  | .jlt _ _ => none
  | .jle _ _ => none
  | .push _ => none
  | .pop _ => none
  | .mul _ o => some o
  | .div _ o => some o
  | .mod _ o => some o
  | .wait o => some o
  | .jsr _ => none
  | .rts => none
  | .sei => none
  | .cli => none
  | .rti => none
  | .lda o => some o
  | .ldx o => some o
  | .ldy o => some o
  | .ldz o => some o
  | .sta _ => none
  | .stx _ => none
  | .sty _ => none
  | .stz _ => none
  | .inc _ => none
  | .dec _ => none
  | .ldb o => some o
  | .ldc o => some o
  | .ldd o => some o
  | .lde o => some o
  | .ldf o => some o
  | .ldg o => some o
  | .ldu o => some o
  | .ldv o => some o
  | .ldw o => some o
  | .stb _ => none
  | .stc _ => none
  | .std _ => none
  | .ste _ => none
  | .stf _ => none
  | .stg _ => none
  | .stu _ => none
  | .stv _ => none
  | .stw _ => none
  | .ldh o => some o
  | .lds o => some o
  | .ldt o => some o
  | .sth _ => none
  | .sts _ => none
  | .stt _ => none
  | .nop => none
  | .halt => none

end Sys2Proof.Machine
end

