-- ==== Sys2Proof/Certificates/Slice0/Obligations.lean ====
section
/-! DEFINITION. The statements for the provers. Each speaks of every state: the interrupt of the same
step is not assumed away. `startBody s = .ok u` says that the timer step of R110 leaves the state `u` and
that the body of the instruction runs in it: `u` is `s` with its timer elements moved on, or the state
after an interrupt entry on a machine whose body continues (R121). -/

namespace Sys2Proof.Claims

open Sys2Proof.Machine

/-! ### Decoding, by format class (R84) -/

/-- The opcode decodes to an instruction of class `RM`, with the fields of R81 and R82. -/
def decodesRM (opcode : Byte) (c : Reg → Operand → Instr) : Prop :=
  ∀ raw : RawInstr, raw.opcode = opcode →
    decodeRaw raw = some (c (Reg.ofField raw.reg) ⟨Mode.ofByte raw.mode, raw.operand32⟩)

/-- The opcode decodes to an instruction of class `M`. -/
def decodesM (opcode : Byte) (c : Operand → Instr) : Prop :=
  ∀ raw : RawInstr, raw.opcode = opcode → decodeRaw raw = some (c ⟨Mode.ofByte raw.mode, raw.operand32⟩)

/-- The opcode decodes to an instruction of class `R`. -/
def decodesR (opcode : Byte) (c : Reg → Instr) : Prop :=
  ∀ raw : RawInstr, raw.opcode = opcode → decodeRaw raw = some (c (Reg.ofField raw.reg))

/-- The opcode decodes to an instruction of class `RT`. -/
def decodesRT (opcode : Byte) (c : Reg → Word → Instr) : Prop :=
  ∀ raw : RawInstr, raw.opcode = opcode → decodeRaw raw = some (c (Reg.ofField raw.reg) raw.operand32)

/-- The opcode decodes to an instruction of class `T`. -/
def decodesT (opcode : Byte) (c : Word → Instr) : Prop :=
  ∀ raw : RawInstr, raw.opcode = opcode → decodeRaw raw = some (c raw.operand32)

/-- The opcode decodes to an instruction of class `N`. -/
def decodesN (opcode : Byte) (i : Instr) : Prop :=
  ∀ raw : RawInstr, raw.opcode = opcode → decodeRaw raw = some i

/-- The opcodes with a register field: classes `RM`, `R` and `RT` of R84. -/
def usesReg : List Byte :=
  [0x01#8, 0x02#8, 0x03#8, 0x04#8, 0x14#8, 0x15#8, 0x16#8, 0x05#8, 0x09#8, 0x0A#8, 0x0B#8, 0x0C#8,
    0x0D#8, 0x12#8, 0x13#8, 0x07#8, 0x08#8, 0x0E#8, 0x0F#8, 0x10#8, 0x11#8]

/-- The opcodes that resolve an operand through the mode byte: classes `RM` and `M` of R84. -/
def usesMode : List Byte :=
  [0x01#8, 0x02#8, 0x03#8, 0x04#8, 0x14#8, 0x15#8, 0x16#8, 0x05#8, 0x09#8, 0x0A#8, 0x0B#8, 0x0C#8,
    0x20#8, 0x21#8, 0x22#8, 0x23#8, 0x3A#8, 0x3B#8, 0x3C#8, 0x3D#8, 0x3E#8, 0x3F#8, 0x40#8, 0x41#8,
    0x42#8, 0x4C#8, 0x4D#8, 0x4E#8, 0x24#8, 0x25#8, 0x26#8, 0x27#8, 0x43#8, 0x44#8, 0x45#8, 0x46#8,
    0x47#8, 0x48#8, 0x49#8, 0x4A#8, 0x4B#8, 0x4F#8, 0x50#8, 0x51#8, 0x28#8, 0x29#8, 0x17#8]

/-- The opcodes that use operand32: those that use the mode byte, and classes `RT` and `T` of R84. -/
def usesOperand32 : List Byte :=
  usesMode ++ [0x07#8, 0x08#8, 0x0E#8, 0x0F#8, 0x10#8, 0x11#8, 0x06#8, 0x18#8]

/-- The reserved opcodes of R89: 0x00, 0x1D to 0x1F, 0x2A to 0x39, 0x52 to 0xED, 0xEF to 0xFE. -/
def isReservedOpcode (b : Byte) : Prop :=
  b.toNat = 0x00 ∨ 0x1D ≤ b.toNat ∧ b.toNat ≤ 0x1F ∨ 0x2A ≤ b.toNat ∧ b.toNat ≤ 0x39 ∨
    0x52 ≤ b.toNat ∧ b.toNat ≤ 0xED ∨ 0xEF ≤ b.toNat ∧ b.toNat ≤ 0xFE

/-! ### Tables of instructions of one shape -/

/-- LDA to LDF with their registers, R141 to R149. -/
def dedicatedLoadsA : List (Byte × (Operand → Instr) × Reg) :=
  [(0x20#8, .lda, .a), (0x21#8, .ldx, .x), (0x22#8, .ldy, .y), (0x23#8, .ldz, .z), (0x3A#8, .ldb, .b),
    (0x3B#8, .ldc, .c), (0x3C#8, .ldd, .d), (0x3D#8, .lde, .e), (0x3E#8, .ldf, .f)]

/-- LDG to LDT with their registers, R150 to R156. -/
def dedicatedLoadsB : List (Byte × (Operand → Instr) × Reg) :=
  [(0x3F#8, .ldg, .g), (0x40#8, .ldu, .u), (0x41#8, .ldv, .v), (0x42#8, .ldw, .w), (0x4C#8, .ldh, .h),
    (0x4D#8, .lds, .s), (0x4E#8, .ldt, .t)]

/-- STA to STF with their registers, R161 to R169. -/
def dedicatedStoresA : List (Byte × (Operand → Instr) × Reg) :=
  [(0x24#8, .sta, .a), (0x25#8, .stx, .x), (0x26#8, .sty, .y), (0x27#8, .stz, .z), (0x43#8, .stb, .b),
    (0x44#8, .stc, .c), (0x45#8, .std, .d), (0x46#8, .ste, .e), (0x47#8, .stf, .f)]

/-- STG to STT with their registers, R170 to R176. -/
def dedicatedStoresB : List (Byte × (Operand → Instr) × Reg) :=
  [(0x48#8, .stg, .g), (0x49#8, .stu, .u), (0x4A#8, .stv, .v), (0x4B#8, .stw, .w), (0x4F#8, .sth, .h),
    (0x50#8, .sts, .s), (0x51#8, .stt, .t)]

/-- ADD, SUB and MUL as functions of unsigned values, R180 to R182. -/
def wrappingOps : List (Byte × (Reg → Operand → Instr) × (Nat → Nat → Nat)) :=
  [(0x03#8, .add, fun a b => (a + b) % 2 ^ 32), (0x04#8, .sub, fun a b => (a + 2 ^ 32 - b) % 2 ^ 32),
    (0x14#8, .mul, fun a b => (a * b) % 2 ^ 32)]

/-- DIV and MOD as functions of unsigned values, R183 and R184. -/
def dividingOps : List (Byte × (Reg → Operand → Instr) × (Nat → Nat → Nat)) :=
  [(0x15#8, .div, fun a b => a / b), (0x16#8, .mod, fun a b => a % b)]

/-- AND, OR and XOR as functions of one bit, R190 to R192. -/
def bitwiseOps : List (Byte × (Reg → Operand → Instr) × (Bool → Bool → Bool)) :=
  [(0x05#8, .and, fun a b => a && b), (0x09#8, .or, fun a b => a || b), (0x0A#8, .xor, fun a b => a != b)]

/-- The six conditional branches with their tests of the signed register, R201 to R206. -/
def conditionalBranches : List (Byte × (Reg → Word → Instr) × (Int → Prop)) :=
  [(0x07#8, .jnz, fun n => n ≠ 0), (0x08#8, .jz, fun n => n = 0), (0x0E#8, .jgt, fun n => n > 0),
    (0x0F#8, .jge, fun n => n ≥ 0), (0x10#8, .jlt, fun n => n < 0), (0x11#8, .jle, fun n => n ≤ 0)]

/-- Each dedicated load with the LOAD it equals, each dedicated store with the STORE (R96). -/
def dedicatedForms : List ((Operand → Instr) × (Operand → Instr)) :=
  (dedicatedLoadsA ++ dedicatedLoadsB).map (fun p => (p.2.1, Instr.load p.2.2)) ++
    (dedicatedStoresA ++ dedicatedStoresB).map (fun p => (p.2.1, Instr.store p.2.2))

/-! ### Forms, for the frames -/

/-- The general register a form may write. -/
def destination : Instr → Option Reg
  | .load r _ | .add r _ | .sub r _ | .mul r _ | .div r _ | .mod r _ | .and r _ | .or r _ | .xor r _
  | .shl r _ | .shr r _ | .not r | .pop r => some r
  | .lda _ => some .a
  | .ldx _ => some .x
  | .ldy _ => some .y
  | .ldz _ => some .z
  | .ldb _ => some .b
  | .ldc _ => some .c
  | .ldd _ => some .d
  | .lde _ => some .e
  | .ldf _ => some .f
  | .ldg _ => some .g
  | .ldh _ => some .h
  | .lds _ => some .s
  | .ldt _ => some .t
  | .ldu _ => some .u
  | .ldv _ => some .v
  | .ldw _ => some .w
  | .inc o | .dec o => if o.mode = .register then some (Reg.ofOperand o.operand32) else none
  | .store _ _ | .jmp _ | .jnz _ _ | .jz _ _ | .jgt _ _ | .jge _ _ | .jlt _ _ | .jle _ _ | .push _ | .wait _
  | .jsr _ | .rts | .sei | .cli | .rti | .sta _ | .stx _ | .sty _ | .stz _ | .stb _ | .stc _ | .std _
  | .ste _ | .stf _ | .stg _ | .stu _ | .stv _ | .stw _ | .sth _ | .sts _ | .stt _ | .nop | .halt => none

/-- The address a form stores to, computed in the state its body runs in; `none` for a form that stores
nothing. A pointer that cannot be read gives no address (the form is refused). -/
def storeAddress (i : Instr) (u : State) : Option (Except Abort Word) :=
  match i with
  | .store _ o | .sta o | .stx o | .sty o | .stz o | .stb o | .stc o | .std o | .ste o | .stf o | .stg o
  | .stu o | .stv o | .stw o | .sth o | .sts o | .stt o => some (storeTarget o u)
  | .inc o | .dec o => if o.mode = .register then none else some (storeTarget o u)
  | .push _ | .jsr _ => some (.ok (u.sp - 4#32))
  | .load _ _ | .add _ _ | .sub _ _ | .and _ _ | .jmp _ | .jnz _ _ | .jz _ _ | .or _ _ | .xor _ _ | .shl _ _
  | .shr _ _ | .not _ | .jgt _ _ | .jge _ _ | .jlt _ _ | .jle _ _ | .pop _ | .mul _ _ | .div _ _ | .mod _ _
  | .wait _ | .rts | .sei | .cli | .rti | .lda _ | .ldx _ | .ldy _ | .ldz _ | .ldb _ | .ldc _ | .ldd _
  | .lde _ | .ldf _ | .ldg _ | .ldu _ | .ldv _ | .ldw _ | .ldh _ | .lds _ | .ldt _ | .nop | .halt => none

/-- What an instruction needs of the state it begins in to have its own effect: the accesses it makes are
installed, a divisor is not 0, and the stack has room (R114, R116, R183, R210 to R213, R222). -/
def completesIn (i : Instr) (s : State) : Prop :=
  match i with
  | .store _ o | .sta o | .stx o | .sty o | .stz o | .stb o | .stc o | .std o | .ste o | .stf o | .stg o
  | .stu o | .stv o | .stw o | .sth o | .sts o | .stt o =>
    ∃ a, storeTarget o s = .ok a ∧ s.backs a 4 = true
  | .inc o | .dec o => o.mode = .register ∨ ∃ a, storeTarget o s = .ok a ∧ s.backs a 4 = true
  | .div _ o | .mod _ o => ∃ v, resolve o s = .ok v ∧ v ≠ 0#32
  | .push _ | .jsr _ => 0x2004 ≤ s.sp.toNat ∧ s.backs (s.sp - 4#32) 4 = true
  | .pop _ | .rts | .rti => s.sp.toNat < 0x9F000 ∧ s.backs s.sp 4 = true
  | .load _ o | .add _ o | .sub _ o | .and _ o | .or _ o | .xor _ o | .shl _ o | .shr _ o | .mul _ o
  | .wait o | .lda o | .ldx o | .ldy o | .ldz o | .ldb o | .ldc o | .ldd o | .lde o | .ldf o | .ldg o
  | .ldu o | .ldv o | .ldw o | .ldh o | .lds o | .ldt o =>
    ∃ v, resolve o s = .ok v
  | .jmp _ | .jnz _ _ | .jz _ _ | .not _ | .jgt _ _ | .jge _ _ | .jlt _ _ | .jle _ _ | .sei | .cli | .nop
  | .halt => True

/-- The instructions after which PC is not simply the next instruction (R112). -/
def setsPc : Instr → Prop
  | .jmp _ | .jnz _ _ | .jz _ _ | .jgt _ _ | .jge _ _ | .jlt _ _ | .jle _ _ | .jsr _ | .rts | .rti | .halt => True
  | .load _ _ | .store _ _ | .add _ _ | .sub _ _ | .and _ _ | .or _ _ | .xor _ _ | .shl _ _ | .shr _ _
  | .not _ | .push _ | .pop _ | .mul _ _ | .div _ _ | .mod _ _ | .wait _ | .sei | .cli | .lda _ | .ldx _
  | .ldy _ | .ldz _ | .sta _ | .stx _ | .sty _ | .stz _ | .inc _ | .dec _ | .ldb _ | .ldc _ | .ldd _
  | .lde _ | .ldf _ | .ldg _ | .ldu _ | .ldv _ | .ldw _ | .stb _ | .stc _ | .std _ | .ste _ | .stf _
  | .stg _ | .stu _ | .stv _ | .stw _ | .ldh _ | .lds _ | .ldt _ | .sth _ | .sts _ | .stt _ | .nop => False

/-- The instructions that move the stack pointer (R25). -/
def movesSp : Instr → Prop
  | .push _ | .jsr _ | .pop _ | .rts | .rti => True
  | .load _ _ | .store _ _ | .add _ _ | .sub _ _ | .and _ _ | .jmp _ | .jnz _ _ | .jz _ _ | .or _ _
  | .xor _ _ | .shl _ _ | .shr _ _ | .not _ | .jgt _ _ | .jge _ _ | .jlt _ _ | .jle _ _ | .mul _ _
  | .div _ _ | .mod _ _ | .wait _ | .sei | .cli | .lda _ | .ldx _ | .ldy _ | .ldz _ | .sta _ | .stx _
  | .sty _ | .stz _ | .inc _ | .dec _ | .ldb _ | .ldc _ | .ldd _ | .lde _ | .ldf _ | .ldg _ | .ldu _
  | .ldv _ | .ldw _ | .stb _ | .stc _ | .std _ | .ste _ | .stf _ | .stg _ | .stu _ | .stv _ | .stw _
  | .ldh _ | .lds _ | .ldt _ | .sth _ | .sts _ | .stt _ | .nop | .halt => False

/-- Every timer element and the installed addresses are the same. -/
def sameTimer (u t : State) : Prop :=
  t.tEn = u.tEn ∧ t.tCount = u.tCount ∧ t.tPeriod = u.tPeriod ∧ t.tPre = u.tPre ∧ t.tState = u.tState ∧
    t.installed = u.installed

/-- What a completed interrupt entry leaves of a state at whose timer step it is due (R250, R253, R254;
that `inirq` is set is D17 and that `ie` stays D18, assumption 17). -/
def afterEntry (s : State) : State :=
  { s with
    tPre := 0
    tCount := s.tPeriod
    tState := .expired
    sp := s.sp - 4#32
    mem := s.mem.writeWord (s.sp - 4#32).toNat s.pc
    pc := s.mem.readWord 0
    inirq := true }

/-- The stop an instruction's body raises (R240): `i` is the decoded instruction, `none` for a reserved
opcode, `u` the state the body runs in. -/
def bodyStops (i : Option Instr) (s u : State) : StopCause → Prop
  | .halt => i = some .halt
  | .reservedOpcode => i = none
  | .divideByZero => ∃ r o, (i = some (.div r o) ∨ i = some (.mod r o)) ∧ resolve o s = .ok 0#32
  | .stackOverflow => ((∃ r, i = some (.push r)) ∨ ∃ a, i = some (.jsr a)) ∧ u.sp.toNat < 0x2004
  | .stackUnderflow => ((∃ r, i = some (.pop r)) ∨ i = some .rts ∨ i = some .rti) ∧ 0x9F000 ≤ u.sp.toNat

end Sys2Proof.Claims

open Sys2Proof Sys2Proof.Machine Sys2Proof.Claims

/-! ### Encoding -/

/-- Decoding the encoding of a well-formed instruction gives it back, for all 64 instructions and every
operand (R81, R82, R85, R87). -/
def Obligations.DecodeOfEncodeIsTheInstruction : Prop :=
  ∀ i : Instr, i.wellFormed = true → decode (encode i) = .instr i

/-- What the decoder reads encodes to the same opcode and used fields with zero in every unused field
(R94), and is well formed. -/
def Obligations.DecodedBytesEncodeCanonically : Prop :=
  ∀ (raw : RawInstr) (i : Instr), decodeRaw raw = some i →
    i.wellFormed = true ∧
    (encodeRaw i).opcode = raw.opcode ∧
    (encodeRaw i).reg = (if raw.opcode ∈ usesReg then raw.reg &&& 0x0F#8 else 0x00#8) ∧
    (encodeRaw i).mode = (if raw.opcode ∈ usesMode then raw.mode else 0x00#8) ∧
    (encodeRaw i).zero = 0x00#8 ∧
    (encodeRaw i).operand32 = (if raw.opcode ∈ usesOperand32 then raw.operand32 else 0x00000000#32)

/-- Two encodings that differ only in ignored fields decode alike (R83). -/
def Obligations.IgnoredFieldsNeverMatter : Prop :=
  ∀ raw raw' : RawInstr, raw.opcode = raw'.opcode →
    (raw.opcode ∈ usesReg → raw.reg &&& 0x0F#8 = raw'.reg &&& 0x0F#8) →
    (raw.opcode ∈ usesMode → raw.mode = raw'.mode) →
    (raw.opcode ∈ usesOperand32 → raw.operand32 = raw'.operand32) →
    decodeRaw raw = decodeRaw raw'

/-- The decoder turns down exactly the 192 reserved opcodes (R89), and executing one runs the timer step
and then stops the processor where PC is, whatever the other fields hold (R242). -/
def Obligations.ReservedOpcodesStopTheProcessor : Prop :=
  (∀ raw : RawInstr, decodeRaw raw = none ↔ isReservedOpcode raw.opcode) ∧
  ∀ (s u : State) (raw : RawInstr), s.run = .running → fetch s = .ok raw → isReservedOpcode raw.opcode →
    startBody s = .ok u → step s = .next { u with run := .stopped .reservedOpcode }

/-- Words of the manual's Appendix B, and one word of each family, decode to what they stand for. -/
def Obligations.ManualWordsDecode : Prop :=
  decode [0x20#8, 0#8, 0#8, 0#8, 0x78#8, 0x56#8, 0x34#8, 0x12#8] = .instr (.lda ⟨.immediate, 0x12345678#32⟩) ∧
  decode [0x01#8, 0x01#8, 0x01#8, 0#8, 0#8, 0#8, 0#8, 0#8] = .instr (.load .x ⟨.register, 0#32⟩) ∧
  decode [0x24#8, 0#8, 0x04#8, 0#8, 0#8, 0x50#8, 0#8, 0#8] = .instr (.sta ⟨.direct, 0x5000#32⟩) ∧
  decode [0x20#8, 0#8, 0x02#8, 0#8, 0x14#8, 0#8, 0#8, 0#8] = .instr (.lda ⟨.regIndirect, 0x14#32⟩) ∧
  decode [0x07#8, 0#8, 0#8, 0#8, 0x20#8, 0x10#8, 0#8, 0#8] = .instr (.jnz .a 0x1020#32) ∧
  decode [0x12#8, 0x0F#8, 0#8, 0#8, 0#8, 0#8, 0#8, 0#8] = .instr (.push .w) ∧
  decode [0x0B#8, 0#8, 0#8, 0#8, 0x04#8, 0#8, 0#8, 0#8] = .instr (.shl .a ⟨.immediate, 4#32⟩) ∧
  decode [0x17#8, 0#8, 0#8, 0#8, 0xE8#8, 0x03#8, 0#8, 0#8] = .instr (.wait ⟨.immediate, 1000#32⟩) ∧
  decode [0xFF#8, 0#8, 0#8, 0#8, 0#8, 0#8, 0#8, 0#8] = .instr .halt

/-! ### The step -/

/-- A running processor whose 8 bytes at PC are installed and decode to an instruction does exactly what
`exec` says of that instruction; the step adds nothing around it (R54, R110). -/
def Obligations.StepRunsTheDecodedInstruction : Prop :=
  ∀ (s : State) (i : Instr), s.run = .running → s.backs s.pc 8 = true →
    decode ((List.range 8).map fun k => s.readByte (s.pc.toNat + k)) = .instr i →
    step s = exec i s

/-- A fetch whose bytes run past 0xFFFFFFFF, or touch a byte outside `Installed`, is refused by name
(R51, R58). -/
def Obligations.FetchOutsideMemoryIsRefused : Prop :=
  ∀ s : State, s.run = .running →
    (2 ^ 32 < s.pc.toNat + 8 → step s = .refused (.pastTopOfMemory s.pc)) ∧
    (s.pc.toNat + 8 ≤ 2 ^ 32 → (∃ k < 8, s.isInstalled (s.pc.toNat + k) = false) →
      step s = .refused (.notInstalled s.pc))

/-- A data access whose bytes run past 0xFFFFFFFF, or touch a byte outside `Installed`, is refused by
name, a read and a write alike (R51, R58). -/
def Obligations.DataAccessOutsideMemoryIsRefused : Prop :=
  ∀ (s : State) (addr v : Word),
    (2 ^ 32 < addr.toNat + 4 →
      memRead addr s = .error (.refused (.pastTopOfMemory addr)) ∧
      memWrite addr v s = .error (.refused (.pastTopOfMemory addr))) ∧
    (addr.toNat + 4 ≤ 2 ^ 32 → (∃ k < 4, s.isInstalled (addr.toNat + k) = false) →
      memRead addr s = .error (.refused (.notInstalled addr)) ∧
      memWrite addr v s = .error (.refused (.notInstalled addr)))

/-- A stopped processor takes no step: there is no next state, whatever the timer holds. Only reset
makes it run again, and reset leaves memory as it is (R245, D16, D21; the fault is the model's name for
having no step). -/
def Obligations.StoppedProcessorTakesNoStep : Prop :=
  ∀ (s : State) (c : StopCause), s.run = .stopped c →
    step s = .fault (.processorStopped c) ∧
    ∀ p, (s.resetEvent p).run = .running ∧ (s.resetEvent p).mem = s.mem

/-- Reset clears the 16 general registers (R285) and gives PC and SP their reset values, whatever the
launch parameters are and whatever the state was. -/
def Obligations.ResetClearsTheRegisters : Prop :=
  ∀ (s : State) (p : ResetParams),
    (∀ r, (s.resetEvent p).getReg r = 0#32) ∧ (s.resetEvent p).pc = 0x1000#32 ∧ (s.resetEvent p).sp = 0x9F000#32

/-- The values the model chose where the spec gives none or a default (assumptions 1, 2 and 3): the
latches and the timer at the defaults of R36, memory that reads 0, every address installed. -/
def Obligations.ResetStateHoldsTheChosenDefaults : Prop :=
  State.reset.run = .running ∧ State.reset.ie = false ∧ State.reset.inirq = false ∧
  State.reset.tEn = false ∧ State.reset.tCount = 0#32 ∧ State.reset.tPeriod = 0#32 ∧
  State.reset.tPre.val = 0 ∧ State.reset.tState = .stopped ∧
  (∀ a, State.reset.readByte a = 0x00#8) ∧ ∀ a, a < 2 ^ 32 → State.reset.isInstalled a = true

/-! ### Registers and memory -/

/-- No register is hardwired: each of the 16 reads as last written and no write reaches another one
(R21). -/
def Obligations.EachRegisterHoldsWhatWasWritten : Prop :=
  ∀ (s : State) (r r' : Reg) (v : Word),
    (s.setReg r v).getReg r = v ∧ (r' ≠ r → (s.setReg r v).getReg r' = s.getReg r')

/-- A word read is the four bytes from its address on, little-endian (R52). That this holds of every
address, aligned or not, is the spec's decision D3 (R56, assumption 11). -/
def Obligations.WordReadIsLittleEndian : Prop :=
  ∀ (s : State) (addr : Word), s.backs addr 4 = true →
    ∃ v, memRead addr s = .ok v ∧ v.extractLsb' 0 8 = s.readByte addr.toNat ∧
      v.extractLsb' 8 8 = s.readByte (addr.toNat + 1) ∧ v.extractLsb' 16 8 = s.readByte (addr.toNat + 2) ∧
      v.extractLsb' 24 8 = s.readByte (addr.toNat + 3)

/-- A word write stores the four bytes little-endian and changes nothing else, in memory or out of it
(R53). That this holds of every address, aligned or not, is the spec's decision D3 (R56, assumption 11). -/
def Obligations.WordWriteStoresFourBytes : Prop :=
  ∀ (s : State) (addr v : Word), s.backs addr 4 = true →
    ∃ m, memWrite addr v s = .ok { s with mem := m } ∧
      m.read addr.toNat = v.extractLsb' 0 8 ∧ m.read (addr.toNat + 1) = v.extractLsb' 8 8 ∧
      m.read (addr.toNat + 2) = v.extractLsb' 16 8 ∧ m.read (addr.toNat + 3) = v.extractLsb' 24 8 ∧
      ∀ b, b < addr.toNat ∨ addr.toNat + 4 ≤ b → m.read b = s.mem.read b

/-- A word written at `a` and a word read at `a + 1` share three bytes (R55, derived there; one of the
two is misaligned: D3, assumption 11). -/
def Obligations.OverlappingWordsShareThreeBytes : Prop :=
  ∀ (s : State) (addr v : Word), s.backs addr 4 = true → s.backs (addr + 1#32) 4 = true →
    ∃ t w, memWrite addr v s = .ok t ∧ memRead (addr + 1#32) t = .ok w ∧
      w.extractLsb' 0 24 = v.extractLsb' 8 24 ∧ w.extractLsb' 24 8 = s.readByte (addr.toNat + 4)

/-- A store to bytes that are fetched later is seen by that fetch (R64, D7; at addresses and PCs that
need no alignment: D3, D4, assumption 11). -/
def Obligations.StoresAreSeenByTheNextFetch : Prop :=
  ∀ (s : State) (addr v : Word), s.backs addr 4 = true → s.backs s.pc 8 = true →
    ∃ t raw, memWrite addr v s = .ok t ∧ fetch t = .ok raw ∧
      ∀ k, k < 8 →
        (∀ j, j < 4 → s.pc.toNat + k = addr.toNat + j → raw.bytes[k]? = some (v.extractLsb' (8 * j) 8)) ∧
        (s.pc.toNat + k < addr.toNat ∨ addr.toNat + 4 ≤ s.pc.toNat + k →
          raw.bytes[k]? = some (s.readByte (s.pc.toNat + k)))

/-! ### Operands -/

/-- Read-style resolution by mode byte (R114): the five modes, and 0 without an access for 0x05 to 0xFF. -/
def Obligations.ReadOperandByModeByte : Prop :=
  ∀ (b : Byte) (v : Word) (s : State),
    (b = 0x00#8 → resolve ⟨Mode.ofByte b, v⟩ s = .ok v) ∧
    (b = 0x01#8 → resolve ⟨Mode.ofByte b, v⟩ s = .ok (s.getReg (Reg.ofIndex (v.extractLsb' 0 4)))) ∧
    (b = 0x02#8 → resolve ⟨Mode.ofByte b, v⟩ s =
      memRead (s.getReg (Reg.ofIndex (v.extractLsb' 0 4)) + (v &&& 0xFFFFFFF0#32)) s) ∧
    (b = 0x03#8 → resolve ⟨Mode.ofByte b, v⟩ s = memRead v s) ∧
    (b = 0x04#8 → resolve ⟨Mode.ofByte b, v⟩ s = memRead v s) ∧
    (5 ≤ b.toNat → resolve ⟨Mode.ofByte b, v⟩ s = .ok 0#32)

/-- Store-style resolution by mode byte (R116): register mode gives the whole field as the address. -/
def Obligations.StoreTargetByModeByte : Prop :=
  ∀ (b : Byte) (v : Word) (s : State),
    (b = 0x00#8 ∨ b = 0x01#8 ∨ b = 0x04#8 ∨ 5 ≤ b.toNat → storeTarget ⟨Mode.ofByte b, v⟩ s = .ok v) ∧
    (b = 0x02#8 → storeTarget ⟨Mode.ofByte b, v⟩ s =
      .ok (s.getReg (Reg.ofIndex (v.extractLsb' 0 4)) + (v &&& 0xFFFFFFF0#32))) ∧
    (b = 0x03#8 → storeTarget ⟨Mode.ofByte b, v⟩ s = memRead v s)

/-- The register-indirect address: the base register named by the low nibble plus the rest of the
field, a multiple of 16, modulo 2^32 (R118). -/
def Obligations.RegisterIndirectAddressIsModular : Prop :=
  ∀ (v : Word) (s : State),
    (eaRegInd v s).toNat =
      ((s.getReg (Reg.ofIndex (BitVec.ofNat 4 (v.toNat % 16)))).toNat + (v.toNat - v.toNat % 16)) % 2 ^ 32

/-! ### Timer and interrupt -/

/-- The timer step, branch by branch, and that the step of every instruction and of a reserved opcode
leaves the timer elements as the timer step does, whether it enters an interrupt or not (R250). That an
entry with SP at STACK_BOTTOM or below stops in the timer step, with the prescaler 0 and the timer state
expired, and that this stop is the whole step, the body not run, is the spec's decision D24 (R253, R248,
R256, assumption 22). `interruptEntry` is stated of on its own. -/
def Obligations.TimerStepFollowsItsRule : Prop :=
  ∀ s : State,
    (s.tEn = false → timerStep s = .ok (s, false)) ∧
    (s.tEn = true → ∀ p : Fin 44100, p.val = s.tPre.val + 1 →
      timerStep s = .ok ({ s with tPre := p }, false)) ∧
    (s.tEn = true → s.tPre.val = 44099 → s.tCount = 0#32 →
      timerStep s = .ok ({ s with tPre := 0 }, false)) ∧
    (s.tEn = true → s.tPre.val = 44099 → 2 ≤ s.tCount.toNat →
      timerStep s = .ok ({ s with tPre := 0, tCount := s.tCount - 1#32 }, false)) ∧
    (s.tEn = true → s.tPre.val = 44099 → s.tCount = 1#32 → s.ie = false ∨ s.inirq = true →
      timerStep s = .ok ({ s with tPre := 0, tCount := s.tPeriod, tState := .expired }, false)) ∧
    (s.tEn = true → s.tPre.val = 44099 → s.tCount = 1#32 → s.ie = true → s.inirq = false → ∀ e,
      interruptEntry { s with tPre := 0, tCount := 0#32, tState := .expired } = .ok e →
      timerStep s = .ok ({ e with tCount := e.tPeriod }, true)) ∧
    (s.tEn = true → s.tPre.val = 44099 → s.tCount = 1#32 → s.ie = true → s.inirq = false →
      s.sp.toNat ≤ 0x2000 →
      ∃ t, timerStep s = .error (.ended t) ∧ t.run = .stopped .stackOverflow ∧ t.tPre.val = 0 ∧
        t.tState = .expired) ∧
    ∀ t, (∃ i, exec i s = .next t) ∨ execReservedOpcode s = .next t →
      (∀ u b, timerStep s = .ok (u, b) → t.tPre = u.tPre ∧ t.tCount = u.tCount ∧ t.tState = u.tState) ∧
      ∀ u, timerStep s = .error (.ended u) → t = u

/-- A timer interrupt is entered exactly under the delivery condition, on the latches as they are before
the body (R252). -/
def Obligations.InterruptIsEnteredExactlyWhenDue : Prop :=
  ∀ s : State,
    (∀ t, timerStep s = .ok (t, true) →
      s.tEn = true ∧ s.tPre.val = 44099 ∧ s.tCount = 1#32 ∧ s.ie = true ∧ s.inirq = false) ∧
    (s.tEn = true → s.tPre.val = 44099 → s.tCount = 1#32 → s.ie = true → s.inirq = false →
      0x2000 < s.sp.toNat → s.backs (s.sp - 4#32) 4 = true → s.backs 0#32 4 = true →
      ∃ t, timerStep s = .ok (t, true))

/-- Interrupt entry pushes PC, loads PC from the word at address 0 and sets the interrupt-active latch;
nothing else changes, `ie` among it (R254; that the latch is set is D17, that `ie` stays is D18). -/
def Obligations.InterruptEntryPushesAndVectors : Prop :=
  ∀ s : State, 0x2000 < s.sp.toNat → s.backs (s.sp - 4#32) 4 = true → s.backs 0#32 4 = true →
    interruptEntry s =
      .ok { s with
            sp := s.sp - 4#32
            mem := s.mem.writeWord (s.sp - 4#32).toNat s.pc
            pc := s.mem.readWord 0
            inirq := true }

/-- When an interrupt is due at the timer step of an instruction or of a reserved opcode, each does this:
where the body continues it runs in the state after the entry, on the operand read before it, and a
reserved opcode stops the processor there; where it is abandoned the step is the entry alone. This machine
is one of the two (R121; IRQ_BODY is open, D10, assumption 5). The state after the entry, `afterEntry`, is
that of R250, R253 and R254: the timer expired and reloaded, PC pushed and loaded from VECTOR_TABLE; that
`inirq` is set in it is the spec's decision D17 and that `ie` stays D18 (assumption 17). -/
def Obligations.EntryComesBeforeTheBodyOfAnyInstruction : Prop :=
  ∀ s : State, s.interruptDue = true → 0x2000 < s.sp.toNat →
    s.backs (s.sp - 4#32) 4 = true → s.backs 0#32 4 = true →
    startBodyWith .continues s = .ok (afterEntry s) ∧
    startBodyWith .abandons s = .error (.ended (afterEntry s)) ∧
    (Config.irqBody = .continues ∧ startBody s = .ok (afterEntry s) ∧
        execReservedOpcode s = .next { afterEntry s with run := .stopped .reservedOpcode } ∨
      Config.irqBody = .abandons ∧ execReservedOpcode s = .next (afterEntry s) ∧
        ∀ i, (∀ o, readOperand i = some o → ∃ v, resolve o s = .ok v) → exec i s = .next (afterEntry s))

/-- When an interrupt is due and SP is at STACK_BOTTOM or below, the processor stops in the timer step
of any instruction and of a reserved opcode: its body does not run, no register, memory byte, latch or SP
changes, and the countdown is 0 or reloaded. PC is any value, so nothing is said of it (R248, R256, D15,
D24, assumptions 6, 7 and 22). -/
def Obligations.EntryOverflowStopsAnyInstruction : Prop :=
  ∀ s : State, s.interruptDue = true → s.sp.toNat ≤ 0x2000 →
    ∃ t, execReservedOpcode s = .next t ∧
      (∀ i, (∀ o, readOperand i = some o → ∃ v, resolve o s = .ok v) → exec i s = .next t) ∧
      t.run = .stopped .stackOverflow ∧ t.regs = s.regs ∧ t.mem = s.mem ∧
      t.sp = s.sp ∧ t.ie = s.ie ∧ t.inirq = s.inirq ∧ t.tPre.val = 0 ∧ t.tState = .expired ∧
      (t.tCount = 0#32 ∨ t.tCount = s.tPeriod)

/-- In a step in which no interrupt is due, the body runs in the state the step began in but for the
prescaler, the countdown and the timer state; with the timer disabled it is that very state (R250). -/
def Obligations.TimerStepLeavesTheRestAlone : Prop :=
  ∀ s : State,
    (s.interruptDue = false →
      ∃ p c x, startBody s = .ok { s with tPre := p, tCount := c, tState := x }) ∧
    (s.tEn = false → startBody s = .ok s)

/-- In a run of `n` steps of a machine whose timer is enabled, the countdown N, from a prescaler of p, first
expires in step 44100 * N - p, the 44100 * N-th from a prescaler of 0. Until then prescaler and countdown
stand where counting puts them, the timer state is as it was and no interrupt is entered; in that step one
is entered exactly if `ie` is set and `inirq` clear, and after it the timer is expired and, unless the
processor stopped, reloaded, so that the next count starts from the reload period. From a countdown of 0 it
never expires (R263, derived there; what the countdown is after a stop is open, D24). -/
def Obligations.FirstExpiryIsAtTheCountedStep : Prop :=
  ∀ (f : Nat → State) (n : Nat), (∀ k, k < n → step (f k) = .next (f (k + 1))) → (f 0).tEn = true →
    ((f 0).tCount ≠ 0#32 → n + (f 0).tPre.val = 44100 * (f 0).tCount.toNat →
      (∀ k, k < n →
        (f k).tPre.val = ((f 0).tPre.val + k) % 44100 ∧
        (f k).tCount.toNat = (f 0).tCount.toNat - ((f 0).tPre.val + k) / 44100 ∧
        (f k).tState = (f 0).tState) ∧
      (∀ k, k + 1 < n → ∃ u, timerStep (f k) = .ok (u, false)) ∧
      (∀ u b, timerStep (f (n - 1)) = .ok (u, b) →
        (b = true ↔ (f (n - 1)).ie = true ∧ (f (n - 1)).inirq = false)) ∧
      (f n).tState = .expired ∧ (f n).tPre.val = 0 ∧
      ((f n).run = .running → (f n).tCount = (f 0).tPeriod)) ∧
    ((f 0).tCount = 0#32 →
      (∀ k, k ≤ n → (f k).tCount = 0#32 ∧ (f k).tState = (f 0).tState) ∧
      ∀ k, k < n → ∃ u, timerStep (f k) = .ok (u, false))

/-- Every instruction completes: in a step in which no interrupt is due, with its accesses installed, a
divisor that is not 0 and room on the stack, each of the 64 gives a next state; the processor still
runs unless it is HALT, and PC advances by 8 unless the instruction sets it (R110, R112, R246). -/
def Obligations.EveryInstructionCompletes : Prop :=
  ∀ (i : Instr) (s : State), s.interruptDue = false → completesIn i s →
    ∃ t, exec i s = .next t ∧ (i ≠ .halt → t.run = s.run) ∧ (i = .halt → t.run = .stopped .halt) ∧
      (¬ setsPc i → t.pc = s.pc + 8#32)

/-! ### Data movement and stores -/

/-- LOAD (R140). -/
def Obligations.LoadWritesItsRegister : Prop :=
  decodesRM 0x01#8 .load ∧
  ∀ (r : Reg) (o : Operand) (s u : State) (v : Word), resolve o s = .ok v → startBody s = .ok u →
    exec (.load r o) s = .next { u with regs := u.regs.set r v, pc := u.pc + 8#32 }

/-- LDA, LDX, LDY, LDZ, LDB, LDC, LDD, LDE, LDF (R141 to R149). -/
def Obligations.DedicatedLoadsWriteTheirRegisterAtoF : Prop :=
  ∀ p ∈ dedicatedLoadsA, decodesM p.1 p.2.1 ∧
    ∀ (o : Operand) (s u : State) (v : Word), resolve o s = .ok v → startBody s = .ok u →
      exec (p.2.1 o) s = .next { u with regs := u.regs.set p.2.2 v, pc := u.pc + 8#32 }

/-- LDG, LDU, LDV, LDW, LDH, LDS, LDT (R150 to R156). -/
def Obligations.DedicatedLoadsWriteTheirRegisterGtoT : Prop :=
  ∀ p ∈ dedicatedLoadsB, decodesM p.1 p.2.1 ∧
    ∀ (o : Operand) (s u : State) (v : Word), resolve o s = .ok v → startBody s = .ok u →
      exec (p.2.1 o) s = .next { u with regs := u.regs.set p.2.2 v, pc := u.pc + 8#32 }

/-- STORE (R160): one word at the store-style target, no register. -/
def Obligations.StoreWritesItsTarget : Prop :=
  decodesRM 0x02#8 .store ∧
  ∀ (r : Reg) (o : Operand) (s u : State) (a : Word), startBody s = .ok u → storeTarget o u = .ok a →
    u.backs a 4 = true →
    exec (.store r o) s = .next { u with mem := u.mem.writeWord a.toNat (u.getReg r), pc := u.pc + 8#32 }

/-- STA, STX, STY, STZ, STB, STC, STD, STE, STF (R161 to R169). -/
def Obligations.DedicatedStoresWriteTheirTargetAtoF : Prop :=
  ∀ p ∈ dedicatedStoresA, decodesM p.1 p.2.1 ∧
    ∀ (o : Operand) (s u : State) (a : Word), startBody s = .ok u → storeTarget o u = .ok a →
      u.backs a 4 = true →
      exec (p.2.1 o) s =
        .next { u with mem := u.mem.writeWord a.toNat (u.getReg p.2.2), pc := u.pc + 8#32 }

/-- STG, STU, STV, STW, STH, STS, STT (R170 to R176). -/
def Obligations.DedicatedStoresWriteTheirTargetGtoT : Prop :=
  ∀ p ∈ dedicatedStoresB, decodesM p.1 p.2.1 ∧
    ∀ (o : Operand) (s u : State) (a : Word), startBody s = .ok u → storeTarget o u = .ok a →
      u.backs a 4 = true →
      exec (p.2.1 o) s =
        .next { u with mem := u.mem.writeWord a.toNat (u.getReg p.2.2), pc := u.pc + 8#32 }

/-- Each dedicated load does in every state what LOAD of its register does, each dedicated store what
STORE of its register does (R96). -/
def Obligations.DedicatedFormsEqualTheGeneralForms : Prop :=
  ∀ p ∈ dedicatedForms, ∀ (o : Operand) (s : State), exec (p.1 o) s = exec (p.2 o) s

/-! ### Arithmetic, logic, shifts -/

/-- ADD, SUB and MUL are the mathematical result modulo 2^32 (R180, R181, R182). -/
def Obligations.AddSubMulWrapModulo : Prop :=
  ∀ p ∈ wrappingOps, decodesRM p.1 p.2.1 ∧
    ∀ (r : Reg) (o : Operand) (s u : State) (v : Word), resolve o s = .ok v → startBody s = .ok u →
      ∃ w, w.toNat = p.2.2 (u.getReg r).toNat v.toNat ∧
        exec (p.2.1 r o) s = .next { u with regs := u.regs.set r w, pc := u.pc + 8#32 }

/-- DIV and MOD are the unsigned quotient and remainder; a zero divisor stops the processor with the
register, SP and memory as they were, and nothing said of PC (R183, R184). -/
def Obligations.DivModAreUnsignedAndStopOnZero : Prop :=
  ∀ p ∈ dividingOps, decodesRM p.1 p.2.1 ∧
    ∀ (r : Reg) (o : Operand) (s u : State) (v : Word), resolve o s = .ok v → startBody s = .ok u →
      (v ≠ 0#32 → ∃ w, w.toNat = p.2.2 (u.getReg r).toNat v.toNat ∧
        exec (p.2.1 r o) s = .next { u with regs := u.regs.set r w, pc := u.pc + 8#32 }) ∧
      (v = 0#32 → ∃ q n, exec (p.2.1 r o) s =
        .next { u with run := .stopped .divideByZero, pc := q, freeIndex := n })

/-- AND, OR and XOR, bit by bit (R190, R191, R192). -/
def Obligations.LogicIsBitwise : Prop :=
  ∀ p ∈ bitwiseOps, decodesRM p.1 p.2.1 ∧
    ∀ (r : Reg) (o : Operand) (s u : State) (v : Word), resolve o s = .ok v → startBody s = .ok u →
      ∃ w : Word, (∀ k, k < 32 → w.getLsbD k = p.2.2 ((u.getReg r).getLsbD k) (v.getLsbD k)) ∧
        exec (p.2.1 r o) s = .next { u with regs := u.regs.set r w, pc := u.pc + 8#32 }

/-- NOT inverts every bit of its register, whatever the other fields of the encoding hold (R193). -/
def Obligations.NotInvertsEveryBit : Prop :=
  decodesR 0x0D#8 .not ∧
  ∀ (r : Reg) (s u : State), startBody s = .ok u →
    ∃ w : Word, (∀ k, k < 32 → w.getLsbD k = !(u.getReg r).getLsbD k) ∧
      exec (.not r) s = .next { u with regs := u.regs.set r w, pc := u.pc + 8#32 }

/-- SHL and SHR move each bit by the whole 32-bit count, zeros entering; a count of 32 or more leaves no
bit (R196, R197; that clause is the spec's decision D14). -/
def Obligations.ShiftsAreLogicalByTheWholeCount : Prop :=
  decodesRM 0x0B#8 .shl ∧ decodesRM 0x0C#8 .shr ∧
  ∀ (r : Reg) (o : Operand) (s u : State) (v : Word), resolve o s = .ok v → startBody s = .ok u →
    (∃ w : Word,
      (∀ k, k < 32 → w.getLsbD k = (decide (v.toNat ≤ k) && (u.getReg r).getLsbD (k - v.toNat))) ∧
      exec (.shl r o) s = .next { u with regs := u.regs.set r w, pc := u.pc + 8#32 }) ∧
    ∃ w : Word,
      (∀ k, k < 32 → w.getLsbD k = (u.getReg r).getLsbD (k + v.toNat)) ∧
      exec (.shr r o) s = .next { u with regs := u.regs.set r w, pc := u.pc + 8#32 }

/-- INC and DEC in register mode change the register the low nibble of operand32 names and no memory;
in every other mode they change the word at the store-style target and no register (R185, R186; the
reserved modes by the spec's decision D22). -/
def Obligations.IncDecChangeTheirTarget : Prop :=
  decodesM 0x28#8 .inc ∧ decodesM 0x29#8 .dec ∧
  ∀ (o : Operand) (s u : State), startBody s = .ok u →
    (o.mode = .register → ∀ r, r = Reg.ofOperand o.operand32 →
      exec (.inc o) s = .next { u with regs := u.regs.set r (u.getReg r + 1#32), pc := u.pc + 8#32 } ∧
      exec (.dec o) s = .next { u with regs := u.regs.set r (u.getReg r - 1#32), pc := u.pc + 8#32 }) ∧
    (o.mode ≠ .register → ∀ a w, storeTarget o u = .ok a → memRead a u = .ok w →
      exec (.inc o) s = .next { u with mem := u.mem.writeWord a.toNat (w + 1#32), pc := u.pc + 8#32 } ∧
      exec (.dec o) s = .next { u with mem := u.mem.writeWord a.toNat (w - 1#32), pc := u.pc + 8#32 })

/-! ### Control flow, stack, system -/

/-- JMP (R200): any 32-bit target, unchecked. -/
def Obligations.JumpLoadsItsTarget : Prop :=
  decodesT 0x06#8 .jmp ∧
  ∀ (target : Word) (s u : State), startBody s = .ok u → exec (.jmp target) s = .next { u with pc := target }

/-- JNZ, JZ, JGT, JGE, JLT, JLE test one register, read as a signed number, against zero (R201 to
R206). -/
def Obligations.BranchesTestOneRegister : Prop :=
  ∀ p ∈ conditionalBranches, decodesRT p.1 p.2.1 ∧
    ∀ (r : Reg) (target : Word) (s u : State), startBody s = .ok u →
      (p.2.2 (u.getReg r).toInt → exec (p.2.1 r target) s = .next { u with pc := target }) ∧
      (¬ p.2.2 (u.getReg r).toInt → exec (p.2.1 r target) s = .next { u with pc := u.pc + 8#32 })

/-- PUSH stores its register at the new stack top, and stops with SP, memory and registers unchanged
when SP is below 0x2004 (R210). -/
def Obligations.PushStoresItsRegister : Prop :=
  decodesR 0x12#8 .push ∧
  ∀ (r : Reg) (s u : State), startBody s = .ok u →
    (0x2004 ≤ u.sp.toNat → u.backs (u.sp - 4#32) 4 = true →
      exec (.push r) s =
        .next { u with sp := u.sp - 4#32, mem := u.mem.writeWord (u.sp - 4#32).toNat (u.getReg r),
                       pc := u.pc + 8#32 }) ∧
    (u.sp.toNat < 0x2004 → ∃ q n, exec (.push r) s =
      .next { u with run := .stopped .stackOverflow, pc := q, freeIndex := n })

/-- POP loads its register from the stack top, leaving memory as it is, and stops with SP and registers
unchanged when SP is at 0x9F000 or above (R211). -/
def Obligations.PopLoadsItsRegister : Prop :=
  decodesR 0x13#8 .pop ∧
  ∀ (r : Reg) (s u : State), startBody s = .ok u →
    (∀ v, u.sp.toNat < 0x9F000 → memRead u.sp u = .ok v →
      exec (.pop r) s = .next { u with sp := u.sp + 4#32, regs := u.regs.set r v, pc := u.pc + 8#32 }) ∧
    (0x9F000 ≤ u.sp.toNat → ∃ q n, exec (.pop r) s =
      .next { u with run := .stopped .stackUnderflow, pc := q, freeIndex := n })

/-- JSR pushes the address of the next instruction and jumps; on overflow it stops with SP, memory and
registers unchanged (R212). PC is any value then, so nothing is said of it (D15, assumption 6). -/
def Obligations.JsrPushesTheReturnAddress : Prop :=
  decodesT 0x18#8 .jsr ∧
  ∀ (target : Word) (s u : State), startBody s = .ok u →
    (0x2004 ≤ u.sp.toNat → u.backs (u.sp - 4#32) 4 = true →
      exec (.jsr target) s =
        .next { u with sp := u.sp - 4#32, mem := u.mem.writeWord (u.sp - 4#32).toNat (u.pc + 8#32),
                       pc := target }) ∧
    (u.sp.toNat < 0x2004 → ∃ q n, exec (.jsr target) s =
      .next { u with run := .stopped .stackOverflow, pc := q, freeIndex := n })

/-- RTS loads PC from the stack top, unchecked, and leaves the interrupt-active latch alone (R213). -/
def Obligations.RtsPopsThePc : Prop :=
  decodesN 0x19#8 .rts ∧
  ∀ s u : State, startBody s = .ok u →
    (∀ v, u.sp.toNat < 0x9F000 → memRead u.sp u = .ok v →
      exec .rts s = .next { u with sp := u.sp + 4#32, pc := v }) ∧
    (0x9F000 ≤ u.sp.toNat → ∃ q n, exec .rts s =
      .next { u with run := .stopped .stackUnderflow, pc := q, freeIndex := n })

/-- A subroutine that returns at once: JSR and then RTS, with the timer disabled and SP where the stack
invariant has it, come back to the instruction after the JSR with SP restored and only the stack word
below it written (R212, R213). -/
def Obligations.JsrThenRtsComesBack : Prop :=
  ∀ (target : Word) (s : State), s.tEn = false → s.stackInv → 0x2004 ≤ s.sp.toNat →
    s.backs (s.sp - 4#32) 4 = true →
    ∃ t, exec (.jsr target) s = .next t ∧ t.pc = target ∧ t.sp = s.sp - 4#32 ∧
      exec .rts t =
        .next { s with mem := s.mem.writeWord (s.sp - 4#32).toNat (s.pc + 8#32), pc := s.pc + 8#32 }

/-- SEI sets and CLI clears the interrupt-enable latch and nothing else; the timer step of the same step
has seen the old latch (R220, R221). -/
def Obligations.SeiEnablesAndCliDisables : Prop :=
  decodesN 0x1A#8 .sei ∧ decodesN 0x1B#8 .cli ∧
  ∀ s u : State, startBody s = .ok u →
    exec .sei s = .next { u with ie := true, pc := u.pc + 8#32 } ∧
    exec .cli s = .next { u with ie := false, pc := u.pc + 8#32 }

/-- RTI pops PC and clears the interrupt-active latch; on underflow neither SP nor the latch changes
(R222, that clause derived there). -/
def Obligations.RtiReturnsFromTheInterrupt : Prop :=
  decodesN 0x1C#8 .rti ∧
  ∀ s u : State, startBody s = .ok u →
    (∀ v, u.sp.toNat < 0x9F000 → memRead u.sp u = .ok v →
      exec .rti s = .next { u with sp := u.sp + 4#32, pc := v, inirq := false }) ∧
    (0x9F000 ≤ u.sp.toNat → ∃ q n, exec .rti s =
      .next { u with run := .stopped .stackUnderflow, pc := q, freeIndex := n })

/-- WAIT resolves its operand and changes nothing but PC (R223; the model has no time, D20). -/
def Obligations.WaitOnlyAdvances : Prop :=
  decodesM 0x17#8 .wait ∧
  ∀ (o : Operand) (s u : State) (v : Word), resolve o s = .ok v → startBody s = .ok u →
    exec (.wait o) s = .next { u with pc := u.pc + 8#32 }

/-- NOP changes nothing but PC (R230). -/
def Obligations.NopOnlyAdvances : Prop :=
  decodesN 0xEE#8 .nop ∧
  ∀ s u : State, startBody s = .ok u → exec .nop s = .next { u with pc := u.pc + 8#32 }

/-- HALT enters the stopped processor state, PC not advanced and no other state changed (R244). -/
def Obligations.HaltStopsWhereItIs : Prop :=
  decodesN 0xFF#8 .halt ∧
  ∀ s u : State, startBody s = .ok u → exec .halt s = .next { u with run := .stopped .halt }

/-! ### Frames -/

/-- A form that stores nothing leaves every byte of memory as the body found it, every general register
but its destination, SP unless it is POP, RTS or RTI, `ie` unless it is SEI or CLI, `inirq` unless it is
RTI, and the timer. -/
def Obligations.FormsThatStoreNothingKeepTheRest : Prop :=
  ∀ (i : Instr) (s u t : State), startBody s = .ok u → storeAddress i u = none → exec i s = .next t →
    (∀ a, t.readByte a = u.readByte a) ∧
    (∀ r, destination i ≠ some r → t.getReg r = u.getReg r) ∧
    (¬ movesSp i → t.sp = u.sp) ∧
    (i ≠ .sei → i ≠ .cli → t.ie = u.ie) ∧
    (i ≠ .rti → t.inirq = u.inirq) ∧
    sameTimer u t

/-- A form that stores changes the four bytes from its computed address on and no other byte, no general
register, SP only for PUSH and JSR, and neither latch nor the timer. -/
def Obligations.StoringFormsKeepTheRest : Prop :=
  ∀ (i : Instr) (s u t : State) (a : Word), startBody s = .ok u → storeAddress i u = some (.ok a) →
    exec i s = .next t →
    (∀ b, b < a.toNat ∨ a.toNat + 4 ≤ b → t.readByte b = u.readByte b) ∧
    (∀ r, t.getReg r = u.getReg r) ∧
    (¬ movesSp i → t.sp = u.sp) ∧
    t.ie = u.ie ∧ t.inirq = u.inirq ∧ sameTimer u t

/-! ### Invariants and whole-machine rules -/

/-- From every state that meets it, a step keeps the invariant: memory canonical, SP a multiple of 4
between STACK_BOTTOM and STACK_START (R25, R215). -/
def Obligations.StepKeepsMemoryAndStackInvariant : Prop :=
  ∀ s t : State, s.Inv → step s = .next t → t.Inv

/-- The launch state meets the invariant for every launch parameter and every canonical launch memory;
so does the reset state. -/
def Obligations.LaunchStatesMeetTheInvariant : Prop :=
  State.reset.Inv ∧
  ∀ (p : ResetParams) (installed : List Region) (m : Memory), m.wf = true → (State.launch p installed m).Inv

/-- No step changes the timer enable latch, the reload period or the installed addresses (R30, R32, R38,
D12). -/
def Obligations.TimerConfigurationNeverChanges : Prop :=
  ∀ s t : State, step s = .next t →
    t.tEn = s.tEn ∧ t.tPeriod = s.tPeriod ∧ t.installed = s.installed

/-- Only SEI and CLI change the interrupt-enable latch; the interrupt-active latch is set by an
interrupt entry alone and cleared by RTI alone; the step of a reserved opcode changes neither but by an
entry (R27, R28, D17, D18). -/
def Obligations.LatchesChangeOnlyByTheirOwnEvents : Prop :=
  (∀ (i : Instr) (s t : State), exec i s = .next t →
    (t.ie ≠ s.ie → i = .sei ∧ t.ie = true ∨ i = .cli ∧ t.ie = false) ∧
    (t.inirq ≠ s.inirq → s.interruptDue = true ∧ t.inirq = true ∨ i = .rti ∧ t.inirq = false)) ∧
  ∀ s t : State, execReservedOpcode s = .next t →
    t.ie = s.ie ∧ (t.inirq ≠ s.inirq → s.interruptDue = true ∧ t.inirq = true)

/-- A running processor stops in a step exactly under the conditions of the table of R240: the entry
that overflows, or the body's own condition. -/
def Obligations.ProcessorStopsExactlyByTheTable : Prop :=
  ∀ (s : State) (raw : RawInstr), s.run = .running → fetch s = .ok raw →
    (∀ t c, step s = .next t → t.run = .stopped c →
      c = .stackOverflow ∧ s.interruptDue = true ∧ s.sp.toNat ≤ 0x2000 ∨
        ∃ u, startBody s = .ok u ∧ bodyStops (decodeRaw raw) s u c) ∧
    (∀ u c, startBody s = .ok u → bodyStops (decodeRaw raw) s u c →
      ∃ t, step s = .next t ∧ t.run = .stopped c) ∧
    (s.interruptDue = true → s.sp.toNat ≤ 0x2000 →
      (∀ i o, decodeRaw raw = some i → readOperand i = some o → ∃ v, resolve o s = .ok v) →
      ∃ t, step s = .next t ∧ t.run = .stopped .stackOverflow)

/-- An instruction, and a reserved opcode, never faults, and is refused only for an access of four bytes
that run past the top of memory, or of which one is not installed; the refusal names their address (R51,
R58, R249; decisions D1 and D2, assumptions 9 and 10). -/
def Obligations.OnlyAccessesAreRefused : Prop :=
  ∀ (s : State) (out : Host.Outcome State Fault Refusal),
    ((∃ i, out = exec i s) ∨ out = execReservedOpcode s) →
    (∀ f, out ≠ .fault f) ∧
    ∀ r, out = .refused r →
      ∃ a, r = .pastTopOfMemory a ∧ 2 ^ 32 < a.toNat + 4 ∨
        r = .notInstalled a ∧ a.toNat + 4 ≤ 2 ^ 32 ∧ ∃ k < 4, s.isInstalled (a.toNat + k) = false
end

