-- ==== Sys2Proof/Laws/Bits.lean ====
section
/-! SUPPORT. Register indices and the byte order of a word are round trips. -/

namespace Sys2Proof

@[simp] theorem Reg.ofIndex_index (r : Reg) : Reg.ofIndex r.index = r := by cases r <;> rfl

@[simp] theorem Reg.index_ofIndex (n : BitVec 4) : (Reg.ofIndex n).index = n := by
  revert n; decide

@[simp] theorem wordOfBytes_byteOf (v : Word) :
    wordOfBytes (byteOf v 0) (byteOf v 1) (byteOf v 2) (byteOf v 3) = v := by
  refine BitVec.eq_of_getLsbD_eq fun i hi => ?_
  simp only [wordOfBytes, byteOf, BitVec.getLsbD_append, BitVec.getLsbD_extractLsb']
  grind

/-- Each byte of a word is the byte it was made of. -/
theorem byteOf_wordOfBytes (b0 b1 b2 b3 : Byte) :
    byteOf (wordOfBytes b0 b1 b2 b3) 0 = b0 ∧ byteOf (wordOfBytes b0 b1 b2 b3) 1 = b1 ∧
      byteOf (wordOfBytes b0 b1 b2 b3) 2 = b2 ∧ byteOf (wordOfBytes b0 b1 b2 b3) 3 = b3 := by
  refine ⟨?_, ?_, ?_, ?_⟩ <;>
  · ext i hi
    simp only [byteOf, wordOfBytes, BitVec.getElem_extractLsb', BitVec.getLsbD_append]
    grind

end Sys2Proof
end

