-- ==== Sys2Proof/Laws/State.lean ====
section
/-! SUPPORT. One lemma per field per update of the state, each true by definition, and the reading of
a register after a write. -/

namespace Sys2Proof.Machine

variable (s : State)

@[simp] theorem State.setReg_regs (r : Reg) (v : Word) : (s.setReg r v).regs = s.regs.set r v := rfl
@[simp] theorem State.setReg_pc (r : Reg) (v : Word) : (s.setReg r v).pc = s.pc := rfl
@[simp] theorem State.setReg_sp (r : Reg) (v : Word) : (s.setReg r v).sp = s.sp := rfl
@[simp] theorem State.setReg_run (r : Reg) (v : Word) : (s.setReg r v).run = s.run := rfl
@[simp] theorem State.setReg_ie (r : Reg) (v : Word) : (s.setReg r v).ie = s.ie := rfl
@[simp] theorem State.setReg_inirq (r : Reg) (v : Word) : (s.setReg r v).inirq = s.inirq := rfl
@[simp] theorem State.setReg_tEn (r : Reg) (v : Word) : (s.setReg r v).tEn = s.tEn := rfl
@[simp] theorem State.setReg_tCount (r : Reg) (v : Word) : (s.setReg r v).tCount = s.tCount := rfl
@[simp] theorem State.setReg_tPeriod (r : Reg) (v : Word) : (s.setReg r v).tPeriod = s.tPeriod := rfl
@[simp] theorem State.setReg_tPre (r : Reg) (v : Word) : (s.setReg r v).tPre = s.tPre := rfl
@[simp] theorem State.setReg_tState (r : Reg) (v : Word) : (s.setReg r v).tState = s.tState := rfl
@[simp] theorem State.setReg_mem (r : Reg) (v : Word) : (s.setReg r v).mem = s.mem := rfl
@[simp] theorem State.setReg_installed (r : Reg) (v : Word) : (s.setReg r v).installed = s.installed := rfl
@[simp] theorem State.setReg_freeIndex (r : Reg) (v : Word) : (s.setReg r v).freeIndex = s.freeIndex := rfl

@[simp] theorem State.setPc_regs (v : Word) : (s.setPc v).regs = s.regs := rfl
@[simp] theorem State.setPc_pc (v : Word) : (s.setPc v).pc = v := rfl
@[simp] theorem State.setPc_sp (v : Word) : (s.setPc v).sp = s.sp := rfl
@[simp] theorem State.setPc_run (v : Word) : (s.setPc v).run = s.run := rfl
@[simp] theorem State.setPc_ie (v : Word) : (s.setPc v).ie = s.ie := rfl
@[simp] theorem State.setPc_inirq (v : Word) : (s.setPc v).inirq = s.inirq := rfl
@[simp] theorem State.setPc_tEn (v : Word) : (s.setPc v).tEn = s.tEn := rfl
@[simp] theorem State.setPc_tCount (v : Word) : (s.setPc v).tCount = s.tCount := rfl
@[simp] theorem State.setPc_tPeriod (v : Word) : (s.setPc v).tPeriod = s.tPeriod := rfl
@[simp] theorem State.setPc_tPre (v : Word) : (s.setPc v).tPre = s.tPre := rfl
@[simp] theorem State.setPc_tState (v : Word) : (s.setPc v).tState = s.tState := rfl
@[simp] theorem State.setPc_mem (v : Word) : (s.setPc v).mem = s.mem := rfl
@[simp] theorem State.setPc_installed (v : Word) : (s.setPc v).installed = s.installed := rfl
@[simp] theorem State.setPc_freeIndex (v : Word) : (s.setPc v).freeIndex = s.freeIndex := rfl

@[simp] theorem State.advance_regs : (s.advance).regs = s.regs := rfl
@[simp] theorem State.advance_pc : (s.advance).pc = s.pc + 8#32 := rfl
@[simp] theorem State.advance_sp : (s.advance).sp = s.sp := rfl
@[simp] theorem State.advance_run : (s.advance).run = s.run := rfl
@[simp] theorem State.advance_ie : (s.advance).ie = s.ie := rfl
@[simp] theorem State.advance_inirq : (s.advance).inirq = s.inirq := rfl
@[simp] theorem State.advance_tEn : (s.advance).tEn = s.tEn := rfl
@[simp] theorem State.advance_tCount : (s.advance).tCount = s.tCount := rfl
@[simp] theorem State.advance_tPeriod : (s.advance).tPeriod = s.tPeriod := rfl
@[simp] theorem State.advance_tPre : (s.advance).tPre = s.tPre := rfl
@[simp] theorem State.advance_tState : (s.advance).tState = s.tState := rfl
@[simp] theorem State.advance_mem : (s.advance).mem = s.mem := rfl
@[simp] theorem State.advance_installed : (s.advance).installed = s.installed := rfl
@[simp] theorem State.advance_freeIndex : (s.advance).freeIndex = s.freeIndex := rfl

@[simp] theorem State.setSp_regs (v : Word) : (s.setSp v).regs = s.regs := rfl
@[simp] theorem State.setSp_pc (v : Word) : (s.setSp v).pc = s.pc := rfl
@[simp] theorem State.setSp_sp (v : Word) : (s.setSp v).sp = v := rfl
@[simp] theorem State.setSp_run (v : Word) : (s.setSp v).run = s.run := rfl
@[simp] theorem State.setSp_ie (v : Word) : (s.setSp v).ie = s.ie := rfl
@[simp] theorem State.setSp_inirq (v : Word) : (s.setSp v).inirq = s.inirq := rfl
@[simp] theorem State.setSp_tEn (v : Word) : (s.setSp v).tEn = s.tEn := rfl
@[simp] theorem State.setSp_tCount (v : Word) : (s.setSp v).tCount = s.tCount := rfl
@[simp] theorem State.setSp_tPeriod (v : Word) : (s.setSp v).tPeriod = s.tPeriod := rfl
@[simp] theorem State.setSp_tPre (v : Word) : (s.setSp v).tPre = s.tPre := rfl
@[simp] theorem State.setSp_tState (v : Word) : (s.setSp v).tState = s.tState := rfl
@[simp] theorem State.setSp_mem (v : Word) : (s.setSp v).mem = s.mem := rfl
@[simp] theorem State.setSp_installed (v : Word) : (s.setSp v).installed = s.installed := rfl
@[simp] theorem State.setSp_freeIndex (v : Word) : (s.setSp v).freeIndex = s.freeIndex := rfl

@[simp] theorem State.setMem_regs (m : Memory) : (s.setMem m).regs = s.regs := rfl
@[simp] theorem State.setMem_pc (m : Memory) : (s.setMem m).pc = s.pc := rfl
@[simp] theorem State.setMem_sp (m : Memory) : (s.setMem m).sp = s.sp := rfl
@[simp] theorem State.setMem_run (m : Memory) : (s.setMem m).run = s.run := rfl
@[simp] theorem State.setMem_ie (m : Memory) : (s.setMem m).ie = s.ie := rfl
@[simp] theorem State.setMem_inirq (m : Memory) : (s.setMem m).inirq = s.inirq := rfl
@[simp] theorem State.setMem_tEn (m : Memory) : (s.setMem m).tEn = s.tEn := rfl
@[simp] theorem State.setMem_tCount (m : Memory) : (s.setMem m).tCount = s.tCount := rfl
@[simp] theorem State.setMem_tPeriod (m : Memory) : (s.setMem m).tPeriod = s.tPeriod := rfl
@[simp] theorem State.setMem_tPre (m : Memory) : (s.setMem m).tPre = s.tPre := rfl
@[simp] theorem State.setMem_tState (m : Memory) : (s.setMem m).tState = s.tState := rfl
@[simp] theorem State.setMem_mem (m : Memory) : (s.setMem m).mem = m := rfl
@[simp] theorem State.setMem_installed (m : Memory) : (s.setMem m).installed = s.installed := rfl
@[simp] theorem State.setMem_freeIndex (m : Memory) : (s.setMem m).freeIndex = s.freeIndex := rfl

@[simp] theorem State.setIe_regs (v : Bool) : (s.setIe v).regs = s.regs := rfl
@[simp] theorem State.setIe_pc (v : Bool) : (s.setIe v).pc = s.pc := rfl
@[simp] theorem State.setIe_sp (v : Bool) : (s.setIe v).sp = s.sp := rfl
@[simp] theorem State.setIe_run (v : Bool) : (s.setIe v).run = s.run := rfl
@[simp] theorem State.setIe_ie (v : Bool) : (s.setIe v).ie = v := rfl
@[simp] theorem State.setIe_inirq (v : Bool) : (s.setIe v).inirq = s.inirq := rfl
@[simp] theorem State.setIe_tEn (v : Bool) : (s.setIe v).tEn = s.tEn := rfl
@[simp] theorem State.setIe_tCount (v : Bool) : (s.setIe v).tCount = s.tCount := rfl
@[simp] theorem State.setIe_tPeriod (v : Bool) : (s.setIe v).tPeriod = s.tPeriod := rfl
@[simp] theorem State.setIe_tPre (v : Bool) : (s.setIe v).tPre = s.tPre := rfl
@[simp] theorem State.setIe_tState (v : Bool) : (s.setIe v).tState = s.tState := rfl
@[simp] theorem State.setIe_mem (v : Bool) : (s.setIe v).mem = s.mem := rfl
@[simp] theorem State.setIe_installed (v : Bool) : (s.setIe v).installed = s.installed := rfl
@[simp] theorem State.setIe_freeIndex (v : Bool) : (s.setIe v).freeIndex = s.freeIndex := rfl

@[simp] theorem State.setInirq_regs (v : Bool) : (s.setInirq v).regs = s.regs := rfl
@[simp] theorem State.setInirq_pc (v : Bool) : (s.setInirq v).pc = s.pc := rfl
@[simp] theorem State.setInirq_sp (v : Bool) : (s.setInirq v).sp = s.sp := rfl
@[simp] theorem State.setInirq_run (v : Bool) : (s.setInirq v).run = s.run := rfl
@[simp] theorem State.setInirq_ie (v : Bool) : (s.setInirq v).ie = s.ie := rfl
@[simp] theorem State.setInirq_inirq (v : Bool) : (s.setInirq v).inirq = v := rfl
@[simp] theorem State.setInirq_tEn (v : Bool) : (s.setInirq v).tEn = s.tEn := rfl
@[simp] theorem State.setInirq_tCount (v : Bool) : (s.setInirq v).tCount = s.tCount := rfl
@[simp] theorem State.setInirq_tPeriod (v : Bool) : (s.setInirq v).tPeriod = s.tPeriod := rfl
@[simp] theorem State.setInirq_tPre (v : Bool) : (s.setInirq v).tPre = s.tPre := rfl
@[simp] theorem State.setInirq_tState (v : Bool) : (s.setInirq v).tState = s.tState := rfl
@[simp] theorem State.setInirq_mem (v : Bool) : (s.setInirq v).mem = s.mem := rfl
@[simp] theorem State.setInirq_installed (v : Bool) : (s.setInirq v).installed = s.installed := rfl
@[simp] theorem State.setInirq_freeIndex (v : Bool) : (s.setInirq v).freeIndex = s.freeIndex := rfl

@[simp] theorem State.setStopped_regs (c : StopCause) : (s.setStopped c).regs = s.regs := rfl
@[simp] theorem State.setStopped_pc (c : StopCause) : (s.setStopped c).pc = s.pc := rfl
@[simp] theorem State.setStopped_sp (c : StopCause) : (s.setStopped c).sp = s.sp := rfl
@[simp] theorem State.setStopped_run (c : StopCause) : (s.setStopped c).run = .stopped c := rfl
@[simp] theorem State.setStopped_ie (c : StopCause) : (s.setStopped c).ie = s.ie := rfl
@[simp] theorem State.setStopped_inirq (c : StopCause) : (s.setStopped c).inirq = s.inirq := rfl
@[simp] theorem State.setStopped_tEn (c : StopCause) : (s.setStopped c).tEn = s.tEn := rfl
@[simp] theorem State.setStopped_tCount (c : StopCause) : (s.setStopped c).tCount = s.tCount := rfl
@[simp] theorem State.setStopped_tPeriod (c : StopCause) : (s.setStopped c).tPeriod = s.tPeriod := rfl
@[simp] theorem State.setStopped_tPre (c : StopCause) : (s.setStopped c).tPre = s.tPre := rfl
@[simp] theorem State.setStopped_tState (c : StopCause) : (s.setStopped c).tState = s.tState := rfl
@[simp] theorem State.setStopped_mem (c : StopCause) : (s.setStopped c).mem = s.mem := rfl
@[simp] theorem State.setStopped_installed (c : StopCause) : (s.setStopped c).installed = s.installed := rfl
@[simp] theorem State.setStopped_freeIndex (c : StopCause) : (s.setStopped c).freeIndex = s.freeIndex := rfl

@[simp] theorem State.setStoppedAnyPc_regs (c : StopCause) : (s.setStoppedAnyPc c).regs = s.regs := rfl
@[simp] theorem State.setStoppedAnyPc_pc (c : StopCause) : (s.setStoppedAnyPc c).pc = Config.stopPc s.freeIndex := rfl
@[simp] theorem State.setStoppedAnyPc_sp (c : StopCause) : (s.setStoppedAnyPc c).sp = s.sp := rfl
@[simp] theorem State.setStoppedAnyPc_run (c : StopCause) : (s.setStoppedAnyPc c).run = .stopped c := rfl
@[simp] theorem State.setStoppedAnyPc_ie (c : StopCause) : (s.setStoppedAnyPc c).ie = s.ie := rfl
@[simp] theorem State.setStoppedAnyPc_inirq (c : StopCause) : (s.setStoppedAnyPc c).inirq = s.inirq := rfl
@[simp] theorem State.setStoppedAnyPc_tEn (c : StopCause) : (s.setStoppedAnyPc c).tEn = s.tEn := rfl
@[simp] theorem State.setStoppedAnyPc_tCount (c : StopCause) : (s.setStoppedAnyPc c).tCount = s.tCount := rfl
@[simp] theorem State.setStoppedAnyPc_tPeriod (c : StopCause) : (s.setStoppedAnyPc c).tPeriod = s.tPeriod := rfl
@[simp] theorem State.setStoppedAnyPc_tPre (c : StopCause) : (s.setStoppedAnyPc c).tPre = s.tPre := rfl
@[simp] theorem State.setStoppedAnyPc_tState (c : StopCause) : (s.setStoppedAnyPc c).tState = s.tState := rfl
@[simp] theorem State.setStoppedAnyPc_mem (c : StopCause) : (s.setStoppedAnyPc c).mem = s.mem := rfl
@[simp] theorem State.setStoppedAnyPc_installed (c : StopCause) : (s.setStoppedAnyPc c).installed = s.installed := rfl
@[simp] theorem State.setStoppedAnyPc_freeIndex (c : StopCause) : (s.setStoppedAnyPc c).freeIndex = s.freeIndex + 1 := rfl

@[simp] theorem State.overflowReload_regs : (s.overflowReload).regs = s.regs := rfl
@[simp] theorem State.overflowReload_pc : (s.overflowReload).pc = s.pc := rfl
@[simp] theorem State.overflowReload_sp : (s.overflowReload).sp = s.sp := rfl
@[simp] theorem State.overflowReload_run : (s.overflowReload).run = s.run := rfl
@[simp] theorem State.overflowReload_ie : (s.overflowReload).ie = s.ie := rfl
@[simp] theorem State.overflowReload_inirq : (s.overflowReload).inirq = s.inirq := rfl
@[simp] theorem State.overflowReload_tEn : (s.overflowReload).tEn = s.tEn := rfl
@[simp] theorem State.overflowReload_tCount : (s.overflowReload).tCount = if Config.overflowReloads s.freeIndex then s.timerReload.tCount else s.tCount := rfl
@[simp] theorem State.overflowReload_tPeriod : (s.overflowReload).tPeriod = s.tPeriod := rfl
@[simp] theorem State.overflowReload_tPre : (s.overflowReload).tPre = s.tPre := rfl
@[simp] theorem State.overflowReload_tState : (s.overflowReload).tState = s.tState := rfl
@[simp] theorem State.overflowReload_mem : (s.overflowReload).mem = s.mem := rfl
@[simp] theorem State.overflowReload_installed : (s.overflowReload).installed = s.installed := rfl
@[simp] theorem State.overflowReload_freeIndex : (s.overflowReload).freeIndex = s.freeIndex + 1 := rfl

@[simp] theorem State.afterTimer_regs : (s.afterTimer).regs = s.regs := rfl
@[simp] theorem State.afterTimer_pc : (s.afterTimer).pc = s.pc := rfl
@[simp] theorem State.afterTimer_sp : (s.afterTimer).sp = s.sp := rfl
@[simp] theorem State.afterTimer_run : (s.afterTimer).run = s.run := rfl
@[simp] theorem State.afterTimer_ie : (s.afterTimer).ie = s.ie := rfl
@[simp] theorem State.afterTimer_inirq : (s.afterTimer).inirq = s.inirq := rfl
@[simp] theorem State.afterTimer_tEn : (s.afterTimer).tEn = s.tEn := rfl
@[simp] theorem State.afterTimer_tCount : (s.afterTimer).tCount = s.countAfterTimer := rfl
@[simp] theorem State.afterTimer_tPeriod : (s.afterTimer).tPeriod = s.tPeriod := rfl
@[simp] theorem State.afterTimer_tPre : (s.afterTimer).tPre = s.preAfterTimer := rfl
@[simp] theorem State.afterTimer_tState : (s.afterTimer).tState = if s.timerExpires then .expired else s.tState := rfl
@[simp] theorem State.afterTimer_mem : (s.afterTimer).mem = s.mem := rfl
@[simp] theorem State.afterTimer_installed : (s.afterTimer).installed = s.installed := rfl
@[simp] theorem State.afterTimer_freeIndex : (s.afterTimer).freeIndex = s.freeIndex := rfl

@[simp] theorem Regs.get_set (q : Regs) (r r' : Reg) (v : Word) :
    (q.set r v).get r' = if r' = r then v else q.get r' := by
  cases r <;> cases r' <;> rfl

@[simp] theorem Regs.set_get (q : Regs) (r : Reg) : q.set r (q.get r) = q := by
  cases r <;> rfl

@[simp] theorem Regs.get_zero (r : Reg) : Regs.zero.get r = 0#32 := by cases r <;> rfl

theorem Regs.ext_get {q q' : Regs} (h : ∀ r, q.get r = q'.get r) : q = q' := by
  cases q
  cases q'
  simp only [Regs.mk.injEq]
  exact ⟨h .a, h .x, h .y, h .z, h .b, h .c, h .d, h .e, h .f, h .g, h .h, h .s, h .t, h .u, h .v, h .w⟩

@[simp] theorem State.getReg_setReg (r r' : Reg) (v : Word) :
    (s.setReg r v).getReg r' = if r' = r then v else s.getReg r' := Regs.get_set _ _ _ _

@[simp] theorem State.getReg_setPc (v : Word) (r : Reg) : (s.setPc v).getReg r = s.getReg r := rfl
@[simp] theorem State.getReg_advance (r : Reg) : (s.advance).getReg r = s.getReg r := rfl
@[simp] theorem State.getReg_setSp (v : Word) (r : Reg) : (s.setSp v).getReg r = s.getReg r := rfl
@[simp] theorem State.getReg_setMem (m : Memory) (r : Reg) : (s.setMem m).getReg r = s.getReg r := rfl
@[simp] theorem State.getReg_setIe (v : Bool) (r : Reg) : (s.setIe v).getReg r = s.getReg r := rfl
@[simp] theorem State.getReg_setInirq (v : Bool) (r : Reg) : (s.setInirq v).getReg r = s.getReg r := rfl
@[simp] theorem State.getReg_setStopped (c : StopCause) (r : Reg) : (s.setStopped c).getReg r = s.getReg r := rfl
@[simp] theorem State.getReg_setStoppedAnyPc (c : StopCause) (r : Reg) : (s.setStoppedAnyPc c).getReg r = s.getReg r := rfl
@[simp] theorem State.getReg_overflowReload (r : Reg) : (s.overflowReload).getReg r = s.getReg r := rfl
@[simp] theorem State.getReg_afterTimer (r : Reg) : (s.afterTimer).getReg r = s.getReg r := rfl

@[simp] theorem State.readByte_setReg (r : Reg) (v : Word) (i : Nat) : (s.setReg r v).readByte i = s.readByte i := rfl
@[simp] theorem State.readByte_setPc (v : Word) (i : Nat) : (s.setPc v).readByte i = s.readByte i := rfl
@[simp] theorem State.readByte_advance (i : Nat) : (s.advance).readByte i = s.readByte i := rfl
@[simp] theorem State.readByte_setSp (v : Word) (i : Nat) : (s.setSp v).readByte i = s.readByte i := rfl
@[simp] theorem State.readByte_setMem (m : Memory) (i : Nat) : (s.setMem m).readByte i = m.read i := rfl
@[simp] theorem State.readByte_setIe (v : Bool) (i : Nat) : (s.setIe v).readByte i = s.readByte i := rfl
@[simp] theorem State.readByte_setInirq (v : Bool) (i : Nat) : (s.setInirq v).readByte i = s.readByte i := rfl
@[simp] theorem State.readByte_setStopped (c : StopCause) (i : Nat) : (s.setStopped c).readByte i = s.readByte i := rfl
@[simp] theorem State.readByte_setStoppedAnyPc (c : StopCause) (i : Nat) : (s.setStoppedAnyPc c).readByte i = s.readByte i := rfl
@[simp] theorem State.readByte_overflowReload (i : Nat) : (s.overflowReload).readByte i = s.readByte i := rfl
@[simp] theorem State.readByte_afterTimer (i : Nat) : (s.afterTimer).readByte i = s.readByte i := rfl

@[simp] theorem State.backs_setReg (r : Reg) (v : Word) (w : Word) (n : Nat) : (s.setReg r v).backs w n = s.backs w n := rfl
@[simp] theorem State.backs_setPc (v : Word) (w : Word) (n : Nat) : (s.setPc v).backs w n = s.backs w n := rfl
@[simp] theorem State.backs_advance (w : Word) (n : Nat) : (s.advance).backs w n = s.backs w n := rfl
@[simp] theorem State.backs_setSp (v : Word) (w : Word) (n : Nat) : (s.setSp v).backs w n = s.backs w n := rfl
@[simp] theorem State.backs_setMem (m : Memory) (w : Word) (n : Nat) : (s.setMem m).backs w n = s.backs w n := rfl
@[simp] theorem State.backs_setIe (v : Bool) (w : Word) (n : Nat) : (s.setIe v).backs w n = s.backs w n := rfl
@[simp] theorem State.backs_setInirq (v : Bool) (w : Word) (n : Nat) : (s.setInirq v).backs w n = s.backs w n := rfl
@[simp] theorem State.backs_setStopped (c : StopCause) (w : Word) (n : Nat) : (s.setStopped c).backs w n = s.backs w n := rfl
@[simp] theorem State.backs_setStoppedAnyPc (c : StopCause) (w : Word) (n : Nat) : (s.setStoppedAnyPc c).backs w n = s.backs w n := rfl
@[simp] theorem State.backs_overflowReload (w : Word) (n : Nat) : (s.overflowReload).backs w n = s.backs w n := rfl
@[simp] theorem State.backs_afterTimer (w : Word) (n : Nat) : (s.afterTimer).backs w n = s.backs w n := rfl

@[simp] theorem State.timerReload_regs : (s.timerReload).regs = s.regs := by
  unfold State.timerReload
  split <;> rfl
@[simp] theorem State.timerReload_pc : (s.timerReload).pc = s.pc := by
  unfold State.timerReload
  split <;> rfl
@[simp] theorem State.timerReload_sp : (s.timerReload).sp = s.sp := by
  unfold State.timerReload
  split <;> rfl
@[simp] theorem State.timerReload_run : (s.timerReload).run = s.run := by
  unfold State.timerReload
  split <;> rfl
@[simp] theorem State.timerReload_ie : (s.timerReload).ie = s.ie := by
  unfold State.timerReload
  split <;> rfl
@[simp] theorem State.timerReload_inirq : (s.timerReload).inirq = s.inirq := by
  unfold State.timerReload
  split <;> rfl
@[simp] theorem State.timerReload_tEn : (s.timerReload).tEn = s.tEn := by
  unfold State.timerReload
  split <;> rfl
@[simp] theorem State.timerReload_tCount : (s.timerReload).tCount = if s.tEn then s.tPeriod else s.tCount := by
  unfold State.timerReload
  split <;> rfl
@[simp] theorem State.timerReload_tPeriod : (s.timerReload).tPeriod = s.tPeriod := by
  unfold State.timerReload
  split <;> rfl
@[simp] theorem State.timerReload_tPre : (s.timerReload).tPre = s.tPre := by
  unfold State.timerReload
  split <;> rfl
@[simp] theorem State.timerReload_tState : (s.timerReload).tState = s.tState := by
  unfold State.timerReload
  split <;> rfl
@[simp] theorem State.timerReload_mem : (s.timerReload).mem = s.mem := by
  unfold State.timerReload
  split <;> rfl
@[simp] theorem State.timerReload_installed : (s.timerReload).installed = s.installed := by
  unfold State.timerReload
  split <;> rfl
@[simp] theorem State.timerReload_freeIndex : (s.timerReload).freeIndex = s.freeIndex := by
  unfold State.timerReload
  split <;> rfl

@[simp] theorem State.resetEvent_regs (p : ResetParams) : (s.resetEvent p).regs = Regs.zero := rfl
@[simp] theorem State.resetEvent_pc (p : ResetParams) : (s.resetEvent p).pc = Config.progStart := rfl
@[simp] theorem State.resetEvent_sp (p : ResetParams) : (s.resetEvent p).sp = Config.stackStart := rfl
@[simp] theorem State.resetEvent_run (p : ResetParams) : (s.resetEvent p).run = .running := rfl
@[simp] theorem State.resetEvent_ie (p : ResetParams) : (s.resetEvent p).ie = p.ie := rfl
@[simp] theorem State.resetEvent_inirq (p : ResetParams) : (s.resetEvent p).inirq = p.inirq := rfl
@[simp] theorem State.resetEvent_tEn (p : ResetParams) : (s.resetEvent p).tEn = p.tEn := rfl
@[simp] theorem State.resetEvent_tCount (p : ResetParams) : (s.resetEvent p).tCount = p.tCount := rfl
@[simp] theorem State.resetEvent_tPeriod (p : ResetParams) : (s.resetEvent p).tPeriod = p.tPeriod := rfl
@[simp] theorem State.resetEvent_tPre (p : ResetParams) : (s.resetEvent p).tPre = p.tPre := rfl
@[simp] theorem State.resetEvent_tState (p : ResetParams) : (s.resetEvent p).tState = p.tState := rfl
@[simp] theorem State.resetEvent_mem (p : ResetParams) : (s.resetEvent p).mem = s.mem := rfl
@[simp] theorem State.resetEvent_installed (p : ResetParams) : (s.resetEvent p).installed = s.installed := rfl
@[simp] theorem State.resetEvent_freeIndex (p : ResetParams) : (s.resetEvent p).freeIndex = s.freeIndex := rfl

@[simp] theorem State.getReg_timerReload (r : Reg) : (s.timerReload).getReg r = s.getReg r := by
  simp [State.getReg]
@[simp] theorem State.readByte_timerReload (i : Nat) : (s.timerReload).readByte i = s.readByte i := by
  simp [State.readByte]
@[simp] theorem State.backs_timerReload (w : Word) (n : Nat) : (s.timerReload).backs w n = s.backs w n := by
  simp [State.backs, State.isInstalled]

/-- The stop keeps every field but the run state, PC and the free-value counter. -/
theorem State.stop_frame (c : StopCause) :
    (s.stop c).regs = s.regs ∧ (s.stop c).sp = s.sp ∧ (s.stop c).ie = s.ie ∧ (s.stop c).inirq = s.inirq ∧
      (s.stop c).tEn = s.tEn ∧ (s.stop c).tCount = s.tCount ∧ (s.stop c).tPeriod = s.tPeriod ∧
      (s.stop c).tPre = s.tPre ∧ (s.stop c).tState = s.tState ∧ (s.stop c).mem = s.mem ∧
      (s.stop c).installed = s.installed := by
  cases c <;> simp [State.stop]

@[simp] theorem State.stop_run (c : StopCause) : (s.stop c).run = .stopped c := by
  cases c <;> rfl

/-- For the causes that leave PC open, the stop writes the run state, a free PC and the counter. -/
theorem State.stop_anyPc (c : StopCause) (h : c ≠ .halt) (h' : c ≠ .reservedOpcode) :
    s.stop c = s.setStoppedAnyPc c := by
  cases c <;> first | rfl | contradiction

end Sys2Proof.Machine
end

