-- ==== Sys2Proof/Laws/Memory.lean ====
section
/-! SUPPORT. Memory: a read after a write, and the canonical form kept by every write. The read laws
hold of any list, canonical or not. -/

namespace Sys2Proof.Machine

theorem Memory.read_erase_same (m : Memory) (a : Nat) : (m.erase a).read a = Config.unlistedByte := by
  induction m with
  | nil => rfl
  | cons c m ih => by_cases h : c.1 = a <;> simp_all [Memory.erase, Memory.read]

theorem Memory.read_erase_ne (m : Memory) {a b : Nat} (h : b ≠ a) : (m.erase a).read b = m.read b := by
  induction m with
  | nil => rfl
  | cons c m ih =>
    by_cases hc : c.1 = a
    · have : c.1 ≠ b := fun h' => h (h'.symm.trans hc)
      simp_all [Memory.erase, Memory.read]
    · simp_all [Memory.erase, Memory.read]

theorem Memory.read_insert_same (m : Memory) (a : Nat) (v : Byte) (h : ∀ c ∈ m, c.1 ≠ a) :
    (m.insert a v).read a = v := by
  induction m with
  | nil => simp [Memory.insert, Memory.read]
  | cons c m ih =>
    have hc := h c (by simp)
    have hm := ih fun d hd => h d (by simp [hd])
    unfold Memory.insert
    split <;> simp_all [Memory.read]

theorem Memory.read_insert_ne (m : Memory) {a b : Nat} (v : Byte) (h : b ≠ a) :
    (m.insert a v).read b = m.read b := by
  induction m with
  | nil => simp [Memory.insert, Memory.read, Ne.symm h]
  | cons c m ih =>
    unfold Memory.insert
    split <;> simp_all [Memory.read, Ne.symm h]

/-- A read of the byte just written gives the value written. -/
@[simp] theorem Memory.read_write_same (m : Memory) (a : Nat) (v : Byte) : (m.write a v).read a = v := by
  unfold Memory.write
  split
  · next h => rw [Memory.read_erase_same, h]
  · exact Memory.read_insert_same _ _ _ (by simp [Memory.erase])

/-- A write leaves every other byte alone. -/
theorem Memory.read_write_ne (m : Memory) {a b : Nat} (v : Byte) (h : b ≠ a) :
    (m.write a v).read b = m.read b := by
  unfold Memory.write
  split
  · exact Memory.read_erase_ne m h
  · rw [Memory.read_insert_ne _ _ h, Memory.read_erase_ne m h]

theorem Memory.read_write (m : Memory) (a b : Nat) (v : Byte) :
    (m.write a v).read b = if b = a then v else m.read b := by
  split
  · next h => rw [h, Memory.read_write_same]
  · next h => exact Memory.read_write_ne m v h

/-- A word write leaves every byte outside its four alone. -/
theorem Memory.read_writeWord_outside (m : Memory) (a : Nat) (v : Word) {b : Nat} (h : b < a ∨ a + 4 ≤ b) :
    (m.writeWord a v).read b = m.read b := by
  unfold Memory.writeWord
  iterate 4 rw [Memory.read_write_ne _ _ (by omega)]

/-- Byte `k` of a word write holds byte `k` of the word. -/
theorem Memory.read_writeWord_inside (m : Memory) (a : Nat) (v : Word) {k : Nat} (h : k < 4) :
    (m.writeWord a v).read (a + k) = byteOf v k := by
  unfold Memory.writeWord
  simp only [Memory.read_write]
  obtain rfl | rfl | rfl | rfl : k = 0 ∨ k = 1 ∨ k = 2 ∨ k = 3 := by omega
  all_goals simp

/-- A word read after a word write to the same address. -/
@[simp] theorem Memory.readWord_writeWord (m : Memory) (a : Nat) (v : Word) :
    (m.writeWord a v).readWord a = v := by
  unfold Memory.readWord
  have h0 := Memory.read_writeWord_inside m a v (k := 0) (by omega)
  rw [Nat.add_zero] at h0
  rw [h0, Memory.read_writeWord_inside m a v (by omega), Memory.read_writeWord_inside m a v (by omega),
    Memory.read_writeWord_inside m a v (by omega), wordOfBytes_byteOf]

/-- A word read that a word write does not touch. -/
theorem Memory.readWord_writeWord_disjoint (m : Memory) (a b : Nat) (v : Word) (h : b + 4 ≤ a ∨ a + 4 ≤ b) :
    (m.writeWord a v).readWord b = m.readWord b := by
  unfold Memory.readWord
  iterate 4 rw [Memory.read_writeWord_outside _ _ _ (by omega)]

/-- The canonical form, as the three facts it is made of. -/
theorem Memory.wf_iff (m : Memory) :
    m.wf = true ↔ m.Pairwise (fun c d => c.1 < d.1) ∧ ∀ c ∈ m, c.1 < 2 ^ 32 ∧ c.2 ≠ Config.unlistedByte := by
  simp [Memory.wf, List.all_eq_true]

theorem Memory.mem_insert {m : Memory} {a : Nat} {v : Byte} {c : Host.Cell} (h : c ∈ m.insert a v) :
    c = (a, v) ∨ c ∈ m := by
  induction m with
  | nil => simpa [Memory.insert] using h
  | cons d m ih =>
    by_cases hlt : a < d.1
    · simpa [Memory.insert, hlt] using h
    · simp only [Memory.insert, hlt, if_false, List.mem_cons] at h
      rcases h with h | h
      · exact .inr (by simp [h])
      · rcases ih h with h | h
        · exact .inl h
        · exact .inr (by simp [h])

theorem Memory.insert_sorted (m : Memory) (a : Nat) (v : Byte) (h : m.Pairwise fun c d => c.1 < d.1)
    (ha : ∀ c ∈ m, c.1 ≠ a) : (m.insert a v).Pairwise fun c d => c.1 < d.1 := by
  induction m with
  | nil => simp [Memory.insert]
  | cons d m ih =>
    rw [List.pairwise_cons] at h
    by_cases hlt : a < d.1
    · simp only [Memory.insert, hlt, if_true, List.pairwise_cons, List.mem_cons]
      exact ⟨fun c hc => by rcases hc with rfl | hc; exacts [hlt, hlt.trans (h.1 c hc)], h⟩
    · simp only [Memory.insert, hlt, if_false, List.pairwise_cons]
      refine ⟨fun c hc => ?_, ih h.2 fun c hc => ha c (by simp [hc])⟩
      rcases Memory.mem_insert hc with rfl | hc
      · have := ha d (by simp)
        simp only
        omega
      · exact h.1 c hc

/-- A byte write inside the address space keeps the canonical form. -/
theorem Memory.write_wf {m : Memory} (a : Nat) (v : Byte) (h : m.wf = true) (ha : a < 2 ^ 32) :
    (m.write a v).wf = true := by
  rw [Memory.wf_iff] at h ⊢
  have hs : (m.erase a).Pairwise fun c d => c.1 < d.1 := h.1.filter _
  have he : ∀ c ∈ m.erase a, c ∈ m ∧ c.1 ≠ a := by simp [Memory.erase]
  unfold Memory.write
  split
  · exact ⟨hs, fun c hc => h.2 c (he c hc).1⟩
  · next hv =>
    refine ⟨Memory.insert_sorted _ _ _ hs fun c hc => (he c hc).2, fun c hc => ?_⟩
    rcases Memory.mem_insert hc with rfl | hc
    · exact ⟨ha, hv⟩
    · exact h.2 c (he c hc).1

/-- A word write inside the address space keeps the canonical form. -/
theorem Memory.writeWord_wf {m : Memory} (a : Nat) (v : Word) (h : m.wf = true) (ha : a + 4 ≤ 2 ^ 32) :
    (m.writeWord a v).wf = true := by
  unfold Memory.writeWord
  iterate 3 refine Memory.write_wf _ _ ?_ (by omega)
  exact Memory.write_wf _ _ h (by omega)

/-- The store of an instruction inside the address space keeps the canonical form. -/
theorem Memory.writeRaw_wf {m : Memory} (a : Nat) (raw : RawInstr) (h : m.wf = true) (ha : a + 8 ≤ 2 ^ 32) :
    (m.writeRaw a raw).wf = true := by
  unfold Memory.writeRaw
  iterate 7 refine Memory.write_wf _ _ ?_ (by omega)
  exact Memory.write_wf _ _ h (by omega)

/-- The 8 bytes just stored are the 8 bytes read. -/
@[simp] theorem Memory.readRaw_writeRaw (m : Memory) (a : Nat) (raw : RawInstr) :
    (m.writeRaw a raw).readRaw a = raw := by
  simp [Memory.readRaw, Memory.writeRaw, Memory.read_write]

theorem Memory.read_of_lt_all (m : Memory) (a : Nat) (h : ∀ c ∈ m, a < c.1) :
    m.read a = Config.unlistedByte := by
  induction m with
  | nil => rfl
  | cons c m ih =>
    have hc := h c (by simp)
    rw [Memory.read, if_neg (by omega)]
    exact ih fun d hd => h d (by simp [hd])

/-- Two canonical memories that read the same everywhere are the same data. -/
theorem Memory.ext_read {m m' : Memory} (h : m.wf = true) (h' : m'.wf = true)
    (hr : ∀ a, m.read a = m'.read a) : m = m' := by
  rw [Memory.wf_iff] at h h'
  induction m generalizing m' with
  | nil =>
    cases m' with
    | nil => rfl
    | cons c m' =>
      have := hr c.1
      simp only [Memory.read, if_true] at this
      exact absurd this.symm (h'.2 c (by simp)).2
  | cons c m ih =>
    cases m' with
    | nil =>
      have := hr c.1
      simp only [Memory.read, if_true] at this
      exact absurd this (h.2 c (by simp)).2
    | cons d m' =>
      have hp := List.pairwise_cons.1 h.1
      have hp' := List.pairwise_cons.1 h'.1
      have hcd : c.1 = d.1 := by
        rcases Nat.lt_trichotomy c.1 d.1 with hlt | heq | hlt
        · have := hr c.1
          rw [Memory.read, if_pos rfl, Memory.read_of_lt_all] at this
          · exact absurd this (h.2 c (by simp)).2
          · intro e he
            rcases List.mem_cons.1 he with rfl | he
            · exact hlt
            · exact hlt.trans (hp'.1 e he)
        · exact heq
        · have := hr d.1
          rw [Memory.read_of_lt_all, Memory.read, if_pos rfl] at this
          · exact absurd this.symm (h'.2 d (by simp)).2
          · intro e he
            rcases List.mem_cons.1 he with rfl | he
            · exact hlt
            · exact hlt.trans (hp.1 e he)
      have hv : c.2 = d.2 := by
        have := hr c.1
        rwa [Memory.read, if_pos rfl, Memory.read, if_pos hcd.symm] at this
      have htail : m = m' := by
        refine ih ⟨hp.2, fun e he => h.2 e (by simp [he])⟩ ⟨hp'.2, fun e he => h'.2 e (by simp [he])⟩
          fun a => ?_
        by_cases ha : c.1 = a
        · rw [Memory.read_of_lt_all m a fun e he => ha ▸ hp.1 e he,
            Memory.read_of_lt_all m' a fun e he => ha ▸ hcd ▸ hp'.1 e he]
        · have := hr a
          rwa [Memory.read, if_neg ha, Memory.read, if_neg (hcd ▸ ha)] at this
      rw [htail, Prod.ext hcd hv]

end Sys2Proof.Machine
end

