-- ==== Sys2Proof/Laws/Ops.lean ====
section
/-! SUPPORT. For each shared operation, what it can do: if it answers a value, then what that value is.
Proofs cite these instead of unfolding the operation. -/

namespace Sys2Proof.Machine

@[simp] theorem finish_ok (s : State) : finish (.ok s) = .next s := rfl
@[simp] theorem finish_ended (s : State) : finish (.error (.ended s)) = .next s := rfl
@[simp] theorem finish_refused (r : Refusal) : finish (.error (.refused r)) = .refused r := rfl

/-- A next state comes from a completed or an ended step. -/
theorem finish_eq_next {x : Except Abort State} {t : State} :
    finish x = .next t ↔ x = .ok t ∨ x = .error (.ended t) := by
  rcases x with (_ | _) | _ <;> simp [finish]

/-- No stage of a step faults. -/
theorem finish_ne_fault (x : Except Abort State) (f : Fault) : finish x ≠ .fault f := by
  rcases x with (_ | _) | _ <;> simp [finish]

/-- A bind that answers: both parts do. -/
theorem bind_eq_ok {α β : Type} {x : Except Abort α} {f : α → Except Abort β} {b : β} :
    (x >>= f) = .ok b ↔ ∃ a, x = .ok a ∧ f a = .ok b := by
  cases x <;> simp [bind, Except.bind]

/-- A bind that is cut short: the first part is, or the second after the first answered. -/
theorem bind_eq_error {α β : Type} {x : Except Abort α} {f : α → Except Abort β} {e : Abort} :
    (x >>= f) = .error e ↔ x = .error e ∨ ∃ a, x = .ok a ∧ f a = .error e := by
  cases x <;> simp [bind, Except.bind]

@[simp] theorem raiseStop_def {α : Type} (c : StopCause) (s : State) :
    (raiseStop c s : Except Abort α) = .error (.ended (s.stop c)) := rfl

/-- An access has a meaning when it stays in the address space and every byte is installed. -/
theorem State.backs_iff (s : State) (addr : Word) (n : Nat) :
    s.backs addr n = true ↔ addr.toNat + n ≤ 2 ^ 32 ∧ ∀ k < n, s.isInstalled (addr.toNat + k) = true := by
  simp [State.backs, List.all_eq_true]

/-- With the whole space installed an access has a meaning when it stays in the address space. -/
theorem State.backs_wholeSpace (s : State) (addr : Word) (n : Nat) (h : s.installed = [Region.wholeSpace]) :
    s.backs addr n = true ↔ addr.toNat + n ≤ 2 ^ 32 := by
  rw [State.backs_iff]
  refine ⟨fun hb => hb.1, fun hb => ⟨hb, fun k hk => ?_⟩⟩
  simp only [State.isInstalled, h, Region.wholeSpace, List.any_cons, List.any_nil, Region.contains, Bool.or_false,
    Bool.and_eq_true, decide_eq_true_eq]
  omega

/-- An abort that refuses a four-byte access of a state, for an address that `backs` turns down. -/
def accessRefused (s : State) (e : Abort) : Prop :=
  ∃ a, s.backs a 4 = false ∧ e = .refused (accessRefusal a 4)

theorem memRead_eq_ok {addr : Word} {s : State} {v : Word} :
    memRead addr s = .ok v ↔ s.backs addr 4 = true ∧ v = s.mem.readWord addr.toNat := by
  unfold memRead
  split
  · next h => simp [h, @eq_comm _ _ v]
  · next h => simp [h]

theorem memRead_eq_error {addr : Word} {s : State} {e : Abort} :
    memRead addr s = .error e ↔ s.backs addr 4 = false ∧ e = .refused (accessRefusal addr 4) := by
  unfold memRead
  split
  · next h => simp [h]
  · next h => simp [h, @eq_comm _ _ e]

theorem memWrite_eq_ok {addr v : Word} {s t : State} :
    memWrite addr v s = .ok t ↔ s.backs addr 4 = true ∧ t = s.setMem (s.mem.writeWord addr.toNat v) := by
  unfold memWrite
  split
  · next h => simp [h, @eq_comm _ _ t]
  · next h => simp [h]

theorem memWrite_eq_error {addr v : Word} {s : State} {e : Abort} :
    memWrite addr v s = .error e ↔ s.backs addr 4 = false ∧ e = .refused (accessRefusal addr 4) := by
  unfold memWrite
  split
  · next h => simp [h]
  · next h => simp [h, @eq_comm _ _ e]

theorem fetch_eq_ok {s : State} {raw : RawInstr} :
    fetch s = .ok raw ↔ s.backs s.pc 8 = true ∧ raw = s.mem.readRaw s.pc.toNat := by
  unfold fetch
  split
  · next h => simp [h, @eq_comm _ _ raw]
  · next h => simp [h]

theorem fetch_eq_error {s : State} {e : Abort} :
    fetch s = .error e ↔ s.backs s.pc 8 = false ∧ e = .refused (accessRefusal s.pc 8) := by
  unfold fetch
  split
  · next h => simp [h]
  · next h => simp [h, @eq_comm _ _ e]

theorem pushUnchecked_eq_ok {v : Word} {s t : State} :
    pushUnchecked v s = .ok t ↔
      s.backs (s.sp - 4#32) 4 = true ∧
        t = { s with sp := s.sp - 4#32, mem := s.mem.writeWord (s.sp - 4#32).toNat v } := by
  simp only [pushUnchecked, memWrite_eq_ok, State.backs_setSp, State.setSp_mem]
  rfl

theorem pushUnchecked_eq_error {v : Word} {s : State} {e : Abort} :
    pushUnchecked v s = .error e ↔
      s.backs (s.sp - 4#32) 4 = false ∧ e = .refused (accessRefusal (s.sp - 4#32) 4) := by
  simp only [pushUnchecked, memWrite_eq_error, State.backs_setSp]

theorem push_eq_ok {v : Word} {s t : State} :
    push v s = .ok t ↔
      0x2004 ≤ s.sp.toNat ∧ s.backs (s.sp - 4#32) 4 = true ∧
        t = { s with sp := s.sp - 4#32, mem := s.mem.writeWord (s.sp - 4#32).toNat v } := by
  unfold push
  rw [show (Config.stackBottom + 4#32).toNat = 0x2004 from rfl]
  split
  · next h => simp; omega
  · next h => rw [pushUnchecked_eq_ok]; simp; omega

theorem push_eq_error {v : Word} {s : State} {e : Abort} :
    push v s = .error e ↔
      s.sp.toNat < 0x2004 ∧ e = .ended (s.setStoppedAnyPc .stackOverflow) ∨
      0x2004 ≤ s.sp.toNat ∧ s.backs (s.sp - 4#32) 4 = false ∧ e = .refused (accessRefusal (s.sp - 4#32) 4) := by
  unfold push
  rw [show (Config.stackBottom + 4#32).toNat = 0x2004 from rfl]
  split
  · next h =>
    have : ¬ 0x2004 ≤ s.sp.toNat := by omega
    simp [h, this, State.stop, @eq_comm _ _ e]
  · next h =>
    have : 0x2004 ≤ s.sp.toNat := by omega
    rw [pushUnchecked_eq_error]
    simp [h, this]

theorem pushIrq_eq_ok {v : Word} {s t : State} :
    pushIrq v s = .ok t ↔
      0x2000 < s.sp.toNat ∧ s.backs (s.sp - 4#32) 4 = true ∧
        t = { s with sp := s.sp - 4#32, mem := s.mem.writeWord (s.sp - 4#32).toNat v } := by
  unfold pushIrq
  rw [show Config.stackBottom.toNat = 0x2000 from rfl]
  split
  · next h => simp; omega
  · next h => rw [pushUnchecked_eq_ok]; simp; omega

theorem pushIrq_eq_error {v : Word} {s : State} {e : Abort} :
    pushIrq v s = .error e ↔
      s.sp.toNat ≤ 0x2000 ∧ e = .ended (s.setStoppedAnyPc .stackOverflow) ∨
      0x2000 < s.sp.toNat ∧ s.backs (s.sp - 4#32) 4 = false ∧ e = .refused (accessRefusal (s.sp - 4#32) 4) := by
  unfold pushIrq
  rw [show Config.stackBottom.toNat = 0x2000 from rfl]
  split
  · next h =>
    have : ¬ 0x2000 < s.sp.toNat := by omega
    simp [h, this, State.stop, @eq_comm _ _ e]
  · next h =>
    have : 0x2000 < s.sp.toNat := by omega
    rw [pushUnchecked_eq_error]
    simp [h, this]

theorem pop_eq_ok {s : State} {p : Word × State} :
    pop s = .ok p ↔
      s.sp.toNat < 0x9F000 ∧ s.backs s.sp 4 = true ∧
        p = (s.mem.readWord s.sp.toNat, s.setSp (s.sp + 4#32)) := by
  unfold pop
  rw [show Config.stackStart.toNat = 0x9F000 from rfl]
  split
  · next h =>
    have : ¬ s.sp.toNat < 0x9F000 := by omega
    simp [this]
  · next h =>
    have : s.sp.toNat < 0x9F000 := by omega
    simp only [bind_eq_ok, memRead_eq_ok, this, true_and]
    constructor
    · rintro ⟨v, ⟨hb, rfl⟩, h⟩
      exact ⟨hb, (Except.ok.inj h).symm⟩
    · rintro ⟨hb, rfl⟩
      exact ⟨_, ⟨hb, rfl⟩, rfl⟩

theorem pop_eq_error {s : State} {e : Abort} :
    pop s = .error e ↔
      0x9F000 ≤ s.sp.toNat ∧ e = .ended (s.setStoppedAnyPc .stackUnderflow) ∨
      s.sp.toNat < 0x9F000 ∧ s.backs s.sp 4 = false ∧ e = .refused (accessRefusal s.sp 4) := by
  unfold pop
  rw [show Config.stackStart.toNat = 0x9F000 from rfl]
  split
  · next h =>
    have : ¬ s.sp.toNat < 0x9F000 := by omega
    simp [h, this, State.stop, @eq_comm _ _ e]
  · next h =>
    have : s.sp.toNat < 0x9F000 := by omega
    simp [bind_eq_error, memRead_eq_error, h, this]

theorem interruptEntry_eq_ok {s t : State} :
    interruptEntry s = .ok t ↔
      ∃ s1, pushIrq s.pc s = .ok s1 ∧ s1.backs Config.vectorTable 4 = true ∧
        t = (s1.setPc (s1.mem.readWord 0)).setInirq true := by
  simp only [interruptEntry, bind_eq_ok, memRead_eq_ok]
  constructor
  · rintro ⟨s1, hp, v, ⟨hb, rfl⟩, h⟩
    exact ⟨s1, hp, hb, (Except.ok.inj h).symm⟩
  · rintro ⟨s1, hp, hb, rfl⟩
    exact ⟨s1, hp, _, ⟨hb, rfl⟩, rfl⟩

/-- An entry is cut short by the stack check or by an access that is refused. -/
theorem interruptEntry_eq_error {s : State} {e : Abort} (h : interruptEntry s = .error e) :
    s.sp.toNat ≤ 0x2000 ∧ e = .ended (s.setStoppedAnyPc .stackOverflow) ∨
      0x2000 < s.sp.toNat ∧ accessRefused s e := by
  rw [interruptEntry, bind_eq_error] at h
  rcases h with h | ⟨s1, h1, h⟩
  · rcases pushIrq_eq_error.1 h with h | ⟨hs, hb⟩
    · exact .inl h
    · exact .inr ⟨hs, _, hb⟩
  · obtain ⟨hs, _, rfl⟩ := pushIrq_eq_ok.1 h1
    rcases bind_eq_error.1 h with h | ⟨v, _, h⟩
    · obtain ⟨hb, he⟩ := memRead_eq_error.1 h
      exact .inr ⟨hs, Config.vectorTable, by simpa only [State.backs, State.isInstalled] using hb, he⟩
    · exact nomatch h

theorem interruptReturn_eq_ok {s t : State} :
    interruptReturn s = .ok t ↔
      s.sp.toNat < 0x9F000 ∧ s.backs s.sp 4 = true ∧
        t = { s with pc := s.mem.readWord s.sp.toNat, sp := s.sp + 4#32, inirq := false } := by
  simp only [interruptReturn, bind_eq_ok, pop_eq_ok]
  constructor
  · rintro ⟨_, ⟨h1, h2, rfl⟩, h⟩
    exact ⟨h1, h2, (Except.ok.inj h).symm⟩
  · rintro ⟨h1, h2, rfl⟩
    exact ⟨_, ⟨h1, h2, rfl⟩, rfl⟩

/-- The state the timer leaves at an expiry, before any entry: prescaler and countdown zero, expired. -/
def State.atExpiry (s : State) : State := { s with tPre := 0, tCount := 0#32, tState := .expired }

@[simp] theorem State.atExpiry_regs (s : State) : s.atExpiry.regs = s.regs := rfl
@[simp] theorem State.atExpiry_pc (s : State) : s.atExpiry.pc = s.pc := rfl
@[simp] theorem State.atExpiry_sp (s : State) : s.atExpiry.sp = s.sp := rfl
@[simp] theorem State.atExpiry_run (s : State) : s.atExpiry.run = s.run := rfl
@[simp] theorem State.atExpiry_ie (s : State) : s.atExpiry.ie = s.ie := rfl
@[simp] theorem State.atExpiry_inirq (s : State) : s.atExpiry.inirq = s.inirq := rfl
@[simp] theorem State.atExpiry_tEn (s : State) : s.atExpiry.tEn = s.tEn := rfl
@[simp] theorem State.atExpiry_tCount (s : State) : s.atExpiry.tCount = 0#32 := rfl
@[simp] theorem State.atExpiry_tPeriod (s : State) : s.atExpiry.tPeriod = s.tPeriod := rfl
@[simp] theorem State.atExpiry_tPre (s : State) : s.atExpiry.tPre = 0 := rfl
@[simp] theorem State.atExpiry_tState (s : State) : s.atExpiry.tState = .expired := rfl
@[simp] theorem State.atExpiry_mem (s : State) : s.atExpiry.mem = s.mem := rfl
@[simp] theorem State.atExpiry_installed (s : State) : s.atExpiry.installed = s.installed := rfl
@[simp] theorem State.atExpiry_freeIndex (s : State) : s.atExpiry.freeIndex = s.freeIndex := rfl

theorem State.timerExpires_iff (s : State) :
    s.timerExpires = true ↔ s.tEn = true ∧ s.tPre.val + 1 = Config.timerDivider ∧ s.tCount = 1#32 := by
  simp [State.timerExpires, and_assoc]

theorem State.interruptDue_iff (s : State) :
    s.interruptDue = true ↔ s.timerExpires = true ∧ s.ie = true ∧ s.inirq = false := by
  simp [State.interruptDue, and_assoc]

/-- A timer step in which no interrupt is due changes three timer elements and nothing else. -/
theorem timerStep_of_not_due {s : State} (h : s.interruptDue = false) :
    timerStep s = .ok (s.afterTimer, false) := by
  have hlt := s.tPre.isLt
  by_cases hen : s.tEn = false
  · cases s
    simp_all [timerStep, State.afterTimer, State.preAfterTimer, State.countAfterTimer, State.timerExpires]
  · rw [Bool.not_eq_false] at hen
    by_cases hp : s.tPre.val + 1 < Config.timerDivider
    · have : s.timerExpires = false := by
        rw [← Bool.not_eq_true, State.timerExpires_iff]; omega
      simp [timerStep, hen, hp, State.afterTimer, State.preAfterTimer, State.countAfterTimer, this]
    · by_cases h0 : s.tCount = 0#32
      · have : s.timerExpires = false := by
          rw [← Bool.not_eq_true, State.timerExpires_iff, h0]; simp
        simp [timerStep, hen, hp, h0, State.afterTimer, State.preAfterTimer, State.countAfterTimer, this]
      · by_cases h1 : s.tCount = 1#32
        · have hx : s.timerExpires = true := (State.timerExpires_iff s).2 ⟨hen, by omega, h1⟩
          have hd : ¬ (s.ie = true ∧ s.inirq = false) := by
            intro hd
            rw [(State.interruptDue_iff s).2 ⟨hx, hd.1, hd.2⟩] at h
            exact absurd h (by simp)
          simp [timerStep, timerExpiry, hen, hp, h1, hd, State.afterTimer, State.preAfterTimer,
            State.countAfterTimer, hx, State.timerReload]
        · have hx : s.timerExpires = false := by
            rw [← Bool.not_eq_true, State.timerExpires_iff]; exact fun hh => h1 hh.2.2
          have hne : s.tCount - 1#32 ≠ 0#32 := fun hh => h1 (by bv_omega)
          simp [timerStep, hen, hp, h0, h1, hne, State.afterTimer, State.preAfterTimer,
            State.countAfterTimer, hx]

/-- A timer step in which an interrupt is due is the entry, then the reload. -/
theorem timerStep_of_due {s : State} (h : s.interruptDue = true) :
    timerStep s =
      match interruptEntry s.atExpiry with
      | .ok e => .ok (e.timerReload, true)
      | .error (.ended t) => .error (.ended t.overflowReload)
      | .error (.refused r) => .error (.refused r) := by
  obtain ⟨hx, hie, hin⟩ := (State.interruptDue_iff s).1 h
  obtain ⟨hen, hp, h1⟩ := (State.timerExpires_iff s).1 hx
  have hp' : ¬ s.tPre.val + 1 < Config.timerDivider := by omega
  simp only [timerStep, timerExpiry, hen, hp', h1, hie, hin, State.atExpiry, Bool.true_eq_false,
    if_false, ne_eq, show (1#32 : Word) - 1#32 = 0#32 from rfl, not_true, and_self, if_true,
    show ¬ ((1#32 : Word) = 0#32) by decide] <;> rfl

theorem startBodyWith_of_not_due (b : IrqBody) {s : State} (h : s.interruptDue = false) :
    startBodyWith b s = .ok s.afterTimer := by
  rw [startBodyWith, timerStep_of_not_due h]

theorem startBody_of_not_due {s : State} (h : s.interruptDue = false) :
    startBody s = .ok s.afterTimer := startBodyWith_of_not_due _ h

/-- A disabled timer leaves the state alone. -/
theorem State.afterTimer_of_disabled {s : State} (h : s.tEn = false) : s.afterTimer = s := by
  cases s
  simp_all [State.afterTimer, State.preAfterTimer, State.countAfterTimer, State.timerExpires]

/-- With the timer disabled no interrupt is due. -/
theorem State.not_due_of_disabled {s : State} (h : s.tEn = false) : s.interruptDue = false := by
  simp [State.interruptDue, State.timerExpires, h]

/-- The body runs in the state the step began in when the timer is disabled. -/
theorem startBody_of_disabled {s : State} (h : s.tEn = false) : startBody s = .ok s := by
  rw [startBody_of_not_due (State.not_due_of_disabled h), State.afterTimer_of_disabled h]

/-- Everything `startBodyWith` can answer: the timer's own change, or a completed interrupt entry of a
machine whose body continues. -/
theorem startBodyWith_eq_ok {b : IrqBody} {s t : State} (h : startBodyWith b s = .ok t) :
    s.interruptDue = false ∧ t = s.afterTimer ∨
      s.interruptDue = true ∧ b = .continues ∧ ∃ e, interruptEntry s.atExpiry = .ok e ∧ t = e.timerReload := by
  cases hd : s.interruptDue with
  | false =>
    rw [startBodyWith_of_not_due b hd] at h
    exact .inl ⟨rfl, (Except.ok.inj h).symm⟩
  | true =>
    rw [startBodyWith, timerStep_of_due hd] at h
    refine .inr ⟨rfl, ?_⟩
    cases he : interruptEntry s.atExpiry with
    | ok e =>
      cases b with
      | continues => simp only [he, Except.ok.injEq] at h; exact ⟨rfl, e, rfl, h.symm⟩
      | abandons => simp [he] at h
    | error x => cases x <;> simp [he] at h

/-- Everything that can cut a step short before its body: an entry that abandons the body, an entry
that stops on overflow, a refused access of the entry. -/
theorem startBodyWith_eq_error {b : IrqBody} {s : State} {x : Abort} (h : startBodyWith b s = .error x) :
    s.interruptDue = true ∧
      (b = .abandons ∧ (∃ e, interruptEntry s.atExpiry = .ok e ∧ x = .ended e.timerReload) ∨
        s.sp.toNat ≤ 0x2000 ∧ x = .ended (s.atExpiry.setStoppedAnyPc .stackOverflow).overflowReload ∨
        accessRefused s x) := by
  cases hd : s.interruptDue with
  | false => rw [startBodyWith_of_not_due b hd] at h; exact nomatch h
  | true =>
    refine ⟨rfl, ?_⟩
    rw [startBodyWith, timerStep_of_due hd] at h
    cases he : interruptEntry s.atExpiry with
    | ok e =>
      cases b with
      | continues => simp [he] at h
      | abandons => simp only [he, Except.error.injEq] at h; exact .inl ⟨rfl, e, rfl, h.symm⟩
    | error y =>
      rcases interruptEntry_eq_error he with ⟨hs, rfl⟩ | ⟨_, a, hb, rfl⟩
      · simp only [he, Except.error.injEq] at h; exact .inr (.inl ⟨hs, h.symm⟩)
      · simp only [he, Except.error.injEq] at h; exact .inr (.inr ⟨a, hb, h.symm⟩)

/-! ### Operands -/

/-- Resolution reads a register, a word of memory or the field itself; it only fails by refusal. -/
theorem resolve_eq_error {o : Operand} {s : State} {e : Abort} (h : resolve o s = .error e) :
    accessRefused s e := by
  unfold resolve at h
  split at h
  all_goals first | exact ⟨_, memRead_eq_error.1 h⟩ | exact nomatch h

theorem storeTarget_eq_error {o : Operand} {s : State} {e : Abort} (h : storeTarget o s = .error e) :
    accessRefused s e := by
  unfold storeTarget at h
  split at h
  all_goals first | exact ⟨_, memRead_eq_error.1 h⟩ | exact nomatch h

/-- INC and DEC select a register in register mode and a word of memory in every other mode. -/
theorem incDecTarget_eq_ok {o : Operand} {s : State} {x : Target} :
    incDecTarget o s = .ok x ↔
      o.mode = .register ∧ x = .reg (Reg.ofOperand o.operand32) ∨
      o.mode ≠ .register ∧ ∃ a, storeTarget o s = .ok a ∧ x = .mem a := by
  unfold incDecTarget
  split
  · next h => simp [h, @eq_comm _ _ x]
  · next h =>
    have h' : o.mode ≠ .register := fun hm => h hm
    simp [h', bind_eq_ok, @eq_comm _ _ x]

theorem incDecTarget_eq_error {o : Operand} {s : State} {e : Abort} (h : incDecTarget o s = .error e) :
    accessRefused s e := by
  unfold incDecTarget at h
  split at h
  · exact nomatch h
  · rcases bind_eq_error.1 h with h | ⟨_, _, h⟩
    · exact storeTarget_eq_error h
    · exact nomatch h

/-- An update changes one register or one word of memory. -/
theorem updateTarget_eq_ok {f : Word → Word} {x : Target} {s t : State} :
    updateTarget f x s = .ok t ↔
      (∃ r, x = .reg r ∧ t = s.setReg r (f (s.getReg r))) ∨
      ∃ a, x = .mem a ∧ s.backs a 4 = true ∧
        t = s.setMem (s.mem.writeWord a.toNat (f (s.mem.readWord a.toNat))) := by
  cases x with
  | reg r => simp [updateTarget, @eq_comm _ _ t]
  | mem a =>
    simp only [updateTarget, bind_eq_ok, memRead_eq_ok, memWrite_eq_ok]
    constructor
    · rintro ⟨_, ⟨hb, rfl⟩, _, rfl⟩
      exact .inr ⟨a, rfl, hb, rfl⟩
    · rintro (⟨r, h, _⟩ | ⟨a', h, hb, rfl⟩)
      · exact nomatch h
      · cases h
        exact ⟨_, ⟨hb, rfl⟩, hb, rfl⟩

theorem updateTarget_eq_error {f : Word → Word} {x : Target} {s : State} {e : Abort}
    (h : updateTarget f x s = .error e) : accessRefused s e := by
  cases x with
  | reg r => exact nomatch h
  | mem a =>
    rcases bind_eq_error.1 h with h | ⟨_, _, h⟩
    · exact ⟨_, memRead_eq_error.1 h⟩
    · exact ⟨_, memWrite_eq_error.1 h⟩

/-! ### The stages of a step -/

/-- What a step without a read-style operand can end in. -/
theorem runBody_eq_next {s t : State} {body : State → Except Abort State} :
    runBody s body = .next t ↔
      startBody s = .error (.ended t) ∨
      ∃ u, startBody s = .ok u ∧ (body u = .ok t ∨ body u = .error (.ended t)) := by
  rw [runBody, finish_eq_next, bind_eq_ok, bind_eq_error]
  constructor
  · rintro (⟨u, h1, h2⟩ | h | ⟨u, h1, h2⟩)
    exacts [.inr ⟨u, h1, .inl h2⟩, .inl h, .inr ⟨u, h1, .inr h2⟩]
  · rintro (h | ⟨u, h1, h2 | h2⟩)
    exacts [.inr (.inl h), .inl ⟨u, h1, h2⟩, .inr (.inr ⟨u, h1, h2⟩)]

/-- What a step with a read-style operand can end in. -/
theorem runRead_eq_next {o : Operand} {s t : State} {body : Word → State → Except Abort State} :
    runRead o s body = .next t ↔ ∃ v, resolve o s = .ok v ∧ runBody s (body v) = .next t := by
  cases h : resolve o s with
  | ok v => simp [runRead, runBody, h, bind, Except.bind]
  | error e =>
    obtain ⟨a, -, rfl⟩ := resolve_eq_error h
    simp [runRead, h, bind, Except.bind]

/-- The step runs its body in the state the timer step leaves. -/
theorem runBody_of_ok {s u : State} {body : State → Except Abort State} (h : startBody s = .ok u) :
    runBody s body = finish (body u) := by
  simp [runBody, h, bind, Except.bind]

/-- The same for an instruction with a read-style operand, whose value was obtained before. -/
theorem runRead_of_ok {o : Operand} {s u : State} {v : Word} {body : Word → State → Except Abort State}
    (hv : resolve o s = .ok v) (h : startBody s = .ok u) : runRead o s body = finish (body v u) := by
  simp [runRead, hv, h, bind, Except.bind]

end Sys2Proof.Machine
end

