-- ==== Sys2Proof/Laws/Exec.lean ====
section
/-! SUPPORT. Every instruction is its operand resolution, the timer step and a body (R110): what `exec`
and `step` can do, said once. -/

namespace Sys2Proof.Machine

/-- The body of an instruction, given the resolved value where it has one (stage 4 of R110). -/
def bodyOf (i : Instr) (v : Word) : State → Except Abort State :=
  match i with
  | .load r _ => loadBody r v
  | .store r o => storeBody r o
  | .add r _ => combineBody (fun a b => a + b) r v
  | .sub r _ => combineBody (fun a b => a - b) r v
  | .and r _ => combineBody (fun a b => a &&& b) r v
  | .jmp target => fun t => .ok (t.setPc target)
  | .jnz r target => branchBody testNotZero r target
  | .jz r target => branchBody testZero r target
  | .or r _ => combineBody (fun a b => a ||| b) r v
  | .xor r _ => combineBody (fun a b => a ^^^ b) r v
  | .shl r _ => combineBody shiftLeft r v
  | .shr r _ => combineBody shiftRight r v
  | .not r => fun t => .ok (t.setReg r (~~~ t.getReg r)).advance
  | .jgt r target => branchBody testPositive r target
  | .jge r target => branchBody testNotNegative r target
  | .jlt r target => branchBody testNegative r target
  | .jle r target => branchBody testNotPositive r target
  | .push r =>
    fun t => do
      let t1 ← push (t.getReg r) t
      .ok t1.advance
  | .pop r =>
    fun t => do
      let (w, t1) ← pop t
      .ok (t1.setReg r w).advance
  | .mul r _ => combineBody (fun a b => a * b) r v
  | .div r _ => divideBody BitVec.udiv r v
  | .mod r _ => divideBody BitVec.umod r v
  | .wait _ => fun t => .ok t.advance
  | .jsr target =>
    fun t => do
      let t1 ← push t.nextPc t
      .ok (t1.setPc target)
  | .rts =>
    fun t => do
      let (w, t1) ← pop t
      .ok (t1.setPc w)
  | .sei => fun t => .ok (t.setIe true).advance
  | .cli => fun t => .ok (t.setIe false).advance
  | .rti => interruptReturn
  | .lda _ => loadBody .a v
  | .ldx _ => loadBody .x v
  | .ldy _ => loadBody .y v
  | .ldz _ => loadBody .z v
  | .sta o => storeBody .a o
  | .stx o => storeBody .x o
  | .sty o => storeBody .y o
  | .stz o => storeBody .z o
  | .inc o => incDecBody (fun v => v + 1#32) o
  | .dec o => incDecBody (fun v => v - 1#32) o
  | .ldb _ => loadBody .b v
  | .ldc _ => loadBody .c v
  | .ldd _ => loadBody .d v
  | .lde _ => loadBody .e v
  | .ldf _ => loadBody .f v
  | .ldg _ => loadBody .g v
  | .ldu _ => loadBody .u v
  | .ldv _ => loadBody .v v
  | .ldw _ => loadBody .w v
  | .stb o => storeBody .b o
  | .stc o => storeBody .c o
  | .std o => storeBody .d o
  | .ste o => storeBody .e o
  | .stf o => storeBody .f o
  | .stg o => storeBody .g o
  | .stu o => storeBody .u o
  | .stv o => storeBody .v o
  | .stw o => storeBody .w o
  | .ldh _ => loadBody .h v
  | .lds _ => loadBody .s v
  | .ldt _ => loadBody .t v
  | .sth o => storeBody .h o
  | .sts o => storeBody .s o
  | .stt o => storeBody .t o
  | .nop => fun t => .ok t.advance
  | .halt => raiseStop .halt

/-- The stages of R110 in one equation. -/
theorem exec_eq (i : Instr) (s : State) :
    exec i s =
      match readOperand i with
      | some o => runRead o s (bodyOf i)
      | none => runBody s (bodyOf i 0#32) := by
  cases i <;> rfl

/-- Everything an instruction can answer: the step ended before the body, or the body ran in the state
the timer step left, on the value resolved before it. -/
theorem exec_eq_next {i : Instr} {s t : State} (h : exec i s = .next t) :
    (∀ o, readOperand i = some o → ∃ v, resolve o s = .ok v) ∧
      (startBody s = .error (.ended t) ∨
        ∃ v u, (∀ o, readOperand i = some o → resolve o s = .ok v) ∧ startBody s = .ok u ∧
          (bodyOf i v u = .ok t ∨ bodyOf i v u = .error (.ended t))) := by
  rw [exec_eq] at h
  split at h
  · next o ho =>
    obtain ⟨v, hv, h⟩ := runRead_eq_next.1 h
    have hr : ∀ o', readOperand i = some o' → resolve o' s = .ok v := by
      intro o' ho'
      rw [ho] at ho'
      cases ho'
      exact hv
    refine ⟨fun o' ho' => ⟨v, hr o' ho'⟩, ?_⟩
    rcases runBody_eq_next.1 h with h | ⟨u, h1, h2⟩
    · exact .inl h
    · exact .inr ⟨v, u, hr, h1, h2⟩
  · next hn =>
    refine ⟨fun o' ho' => absurd (hn.symm.trans ho') (by simp), ?_⟩
    rcases runBody_eq_next.1 h with h | ⟨u, h1, h2⟩
    · exact .inl h
    · exact .inr ⟨0#32, u, fun o' ho' => absurd (hn.symm.trans ho') (by simp), h1, h2⟩

/-- The body of an instruction runs when its operand resolves and the timer step leaves a state. -/
theorem exec_of_ok {i : Instr} {s u : State} {v : Word} (hr : ∀ o, readOperand i = some o → resolve o s = .ok v)
    (hv : readOperand i = none → v = 0#32) (h : startBody s = .ok u) : exec i s = finish (bodyOf i v u) := by
  rw [exec_eq]
  split
  · next o ho => exact runRead_of_ok (hr o ho) h
  · next hn => rw [← hv hn]; exact runBody_of_ok h

/-- Everything a step can answer. -/
theorem step_eq_next {s t : State} (h : step s = .next t) :
    s.run = .running ∧ ∃ raw, fetch s = .ok raw ∧
      ((∃ i, decodeRaw raw = some i ∧ exec i s = .next t) ∨
        decodeRaw raw = none ∧ execReservedOpcode s = .next t) := by
  unfold step at h
  split at h
  · exact nomatch h
  · next hr =>
    refine ⟨hr, ?_⟩
    split at h
    · next e he =>
      obtain ⟨-, rfl⟩ := fetch_eq_error.1 he
      exact nomatch h
    · next raw hf =>
      refine ⟨raw, hf, ?_⟩
      split at h
      · next i hi => exact .inl ⟨i, hi, h⟩
      · next hi => exact .inr ⟨hi, h⟩

end Sys2Proof.Machine
end

