-- ==== Sys2Proof/Laws/Bodies.lean ====
section
/-! SUPPORT. What each shared body of the instructions can do, said once: the state it ends in, and how it
can be cut short. Cite these; the bodies need not be unfolded. -/

namespace Sys2Proof.Machine

theorem loadBody_eq (r : Reg) (v : Word) (u : State) : loadBody r v u = .ok (u.setReg r v).advance := rfl

theorem combineBody_eq (f : Word → Word → Word) (r : Reg) (v : Word) (u : State) :
    combineBody f r v u = .ok (u.setReg r (f (u.getReg r) v)).advance := rfl

/-- A zero divisor stops; any other operand writes the register. -/
theorem divideBody_of_zero (f : Word → Word → Word) (r : Reg) (u : State) :
    divideBody f r 0#32 u = .error (.ended (u.setStoppedAnyPc .divideByZero)) := rfl

theorem divideBody_of_ne (f : Word → Word → Word) (r : Reg) {v : Word} (u : State) (h : v ≠ 0#32) :
    divideBody f r v u = .ok (u.setReg r (f (u.getReg r) v)).advance := by
  rw [divideBody, if_neg h, combineBody_eq]

/-- A branch writes PC: the target or the next instruction. -/
theorem branchBody_eq (test : Word → Bool) (r : Reg) (target : Word) (u : State) :
    branchBody test r target u = .ok (u.setPc (if test (u.getReg r) then target else u.nextPc)) := by
  unfold branchBody
  split <;> rfl

/-- A store that completes: the target address, four installed bytes, the register written there. -/
theorem storeBody_eq_ok {r : Reg} {o : Operand} {u t : State} :
    storeBody r o u = .ok t ↔
      ∃ a, storeTarget o u = .ok a ∧ u.backs a 4 = true ∧
        t = (u.setMem (u.mem.writeWord a.toNat (u.getReg r))).advance := by
  rw [storeBody, bind_eq_ok]
  refine exists_congr fun a => and_congr_right fun _ => ?_
  rw [bind_eq_ok]
  constructor
  · rintro ⟨t1, h1, h⟩
    obtain ⟨hb, rfl⟩ := memWrite_eq_ok.1 h1
    exact ⟨hb, (Except.ok.inj h).symm⟩
  · rintro ⟨hb, rfl⟩
    exact ⟨_, memWrite_eq_ok.2 ⟨hb, rfl⟩, rfl⟩

/-- A store never ends a step early; it is refused for an access. -/
theorem storeBody_eq_error {r : Reg} {o : Operand} {u : State} {e : Abort} (h : storeBody r o u = .error e) :
    accessRefused u e := by
  rcases bind_eq_error.1 h with h | ⟨a, _, h⟩
  · exact storeTarget_eq_error h
  · rcases bind_eq_error.1 h with h | ⟨_, _, h⟩
    · exact ⟨_, memWrite_eq_error.1 h⟩
    · exact nomatch h

/-- An INC or DEC that completes: a register in register mode, else a word of memory. -/
theorem incDecBody_eq_ok {f : Word → Word} {o : Operand} {u t : State} :
    incDecBody f o u = .ok t ↔
      o.mode = .register ∧
        t = (u.setReg (Reg.ofOperand o.operand32) (f (u.getReg (Reg.ofOperand o.operand32)))).advance ∨
      o.mode ≠ .register ∧ ∃ a, storeTarget o u = .ok a ∧ u.backs a 4 = true ∧
        t = (u.setMem (u.mem.writeWord a.toNat (f (u.mem.readWord a.toNat)))).advance := by
  rw [incDecBody, bind_eq_ok]
  constructor
  · rintro ⟨x, hx, h⟩
    obtain ⟨t1, h1, h⟩ := bind_eq_ok.1 h
    cases h
    rcases incDecTarget_eq_ok.1 hx with ⟨hm, rfl⟩ | ⟨hm, a, ha, rfl⟩
    · rcases updateTarget_eq_ok.1 h1 with ⟨r, hr, rfl⟩ | ⟨a, ha, -⟩
      · cases hr
        exact .inl ⟨hm, rfl⟩
      · exact nomatch ha
    · rcases updateTarget_eq_ok.1 h1 with ⟨r, hr, -⟩ | ⟨b, hb, hi, rfl⟩
      · exact nomatch hr
      · cases hb
        exact .inr ⟨hm, a, ha, hi, rfl⟩
  · rintro (⟨hm, rfl⟩ | ⟨hm, a, ha, hi, rfl⟩)
    · exact ⟨_, incDecTarget_eq_ok.2 (.inl ⟨hm, rfl⟩), bind_eq_ok.2 ⟨_, updateTarget_eq_ok.2 (.inl ⟨_, rfl, rfl⟩), rfl⟩⟩
    · exact ⟨_, incDecTarget_eq_ok.2 (.inr ⟨hm, a, ha, rfl⟩),
        bind_eq_ok.2 ⟨_, updateTarget_eq_ok.2 (.inr ⟨a, rfl, hi, rfl⟩), rfl⟩⟩

/-- INC and DEC never end a step early; they are refused for an access. -/
theorem incDecBody_eq_error {f : Word → Word} {o : Operand} {u : State} {e : Abort}
    (h : incDecBody f o u = .error e) : accessRefused u e := by
  rcases bind_eq_error.1 h with h | ⟨x, _, h⟩
  · exact incDecTarget_eq_error h
  · rcases bind_eq_error.1 h with h | ⟨_, _, h⟩
    · exact updateTarget_eq_error h
    · exact nomatch h

/-- A push followed by a pure change `g` completes or overflows or is refused. -/
theorem push_then_eq_next {w : Word} {g : State → State} {u t : State}
    (h : (do let t1 ← push w u; Except.ok (g t1)) = .ok t ∨
      (do let t1 ← push w u; Except.ok (g t1)) = .error (.ended t)) :
    u.sp.toNat < 0x2004 ∧ t = u.setStoppedAnyPc .stackOverflow ∨
      0x2004 ≤ u.sp.toNat ∧ u.backs (u.sp - 4#32) 4 = true ∧
        t = g { u with sp := u.sp - 4#32, mem := u.mem.writeWord (u.sp - 4#32).toNat w } := by
  rcases h with h | h
  · obtain ⟨t1, h1, h⟩ := bind_eq_ok.1 h
    obtain ⟨hs, hb, rfl⟩ := push_eq_ok.1 h1
    exact .inr ⟨hs, hb, (Except.ok.inj h).symm⟩
  · rcases bind_eq_error.1 h with h | ⟨_, _, h⟩
    · rcases push_eq_error.1 h with ⟨hs, h⟩ | ⟨_, _, h⟩
      · cases h
        exact .inl ⟨hs, rfl⟩
      · exact nomatch h
    · exact nomatch h

/-- A pop followed by a pure change `g` completes or underflows or is refused. -/
theorem pop_then_eq_next {g : Word × State → State} {u t : State}
    (h : (do let p ← pop u; Except.ok (g p)) = .ok t ∨ (do let p ← pop u; Except.ok (g p)) = .error (.ended t)) :
    0x9F000 ≤ u.sp.toNat ∧ t = u.setStoppedAnyPc .stackUnderflow ∨
      u.sp.toNat < 0x9F000 ∧ u.backs u.sp 4 = true ∧
        t = g (u.mem.readWord u.sp.toNat, u.setSp (u.sp + 4#32)) := by
  rcases h with h | h
  · obtain ⟨t1, h1, h⟩ := bind_eq_ok.1 h
    obtain ⟨hs, hb, rfl⟩ := pop_eq_ok.1 h1
    exact .inr ⟨hs, hb, (Except.ok.inj h).symm⟩
  · rcases bind_eq_error.1 h with h | ⟨_, _, h⟩
    · rcases pop_eq_error.1 h with ⟨hs, h⟩ | ⟨_, _, h⟩
      · cases h
        exact .inl ⟨hs, rfl⟩
      · exact nomatch h
    · exact nomatch h

/-- Everything the step of a reserved opcode can answer. -/
theorem execReservedOpcode_eq_next {s t : State} (h : execReservedOpcode s = .next t) :
    startBody s = .error (.ended t) ∨ ∃ u, startBody s = .ok u ∧ t = u.setStopped .reservedOpcode := by
  rcases runBody_eq_next.1 h with h | ⟨u, hu, h⟩
  · exact .inl h
  · rcases h with h | h
    · exact nomatch h
    · cases h
      exact .inr ⟨u, hu, rfl⟩

end Sys2Proof.Machine
end

