-- ==== Sys2Proof/Laws/PerInstr.lean ====
section
/-! SUPPORT. What is proved instruction by instruction: the header of its encoding (R80, R87, R94). -/

namespace Sys2Proof.Laws

/-- The encoding has 8 bytes, an opcode of the map and a zero byte 3. -/
def EncodeHeader.Statement (i : Instr) : Prop :=
  (encode i).length = 8 ∧ (opcodeRow (encodeRaw i).opcode).isSome = true ∧ (encodeRaw i).zero = 0x00#8

theorem EncodeHeader.load (r : Reg) (o : Operand) : EncodeHeader.Statement (.load r o) :=
  ⟨rfl, rfl, rfl⟩
theorem EncodeHeader.store (r : Reg) (o : Operand) : EncodeHeader.Statement (.store r o) :=
  ⟨rfl, rfl, rfl⟩
theorem EncodeHeader.add (r : Reg) (o : Operand) : EncodeHeader.Statement (.add r o) :=
  ⟨rfl, rfl, rfl⟩
theorem EncodeHeader.sub (r : Reg) (o : Operand) : EncodeHeader.Statement (.sub r o) :=
  ⟨rfl, rfl, rfl⟩
theorem EncodeHeader.and (r : Reg) (o : Operand) : EncodeHeader.Statement (.and r o) :=
  ⟨rfl, rfl, rfl⟩
theorem EncodeHeader.jmp (target : Word) : EncodeHeader.Statement (.jmp target) :=
  ⟨rfl, rfl, rfl⟩
theorem EncodeHeader.jnz (r : Reg) (target : Word) : EncodeHeader.Statement (.jnz r target) :=
  ⟨rfl, rfl, rfl⟩
theorem EncodeHeader.jz (r : Reg) (target : Word) : EncodeHeader.Statement (.jz r target) :=
  ⟨rfl, rfl, rfl⟩
theorem EncodeHeader.or (r : Reg) (o : Operand) : EncodeHeader.Statement (.or r o) :=
  ⟨rfl, rfl, rfl⟩
theorem EncodeHeader.xor (r : Reg) (o : Operand) : EncodeHeader.Statement (.xor r o) :=
  ⟨rfl, rfl, rfl⟩
theorem EncodeHeader.shl (r : Reg) (o : Operand) : EncodeHeader.Statement (.shl r o) :=
  ⟨rfl, rfl, rfl⟩
theorem EncodeHeader.shr (r : Reg) (o : Operand) : EncodeHeader.Statement (.shr r o) :=
  ⟨rfl, rfl, rfl⟩
theorem EncodeHeader.not (r : Reg) : EncodeHeader.Statement (.not r) :=
  ⟨rfl, rfl, rfl⟩
theorem EncodeHeader.jgt (r : Reg) (target : Word) : EncodeHeader.Statement (.jgt r target) :=
  ⟨rfl, rfl, rfl⟩
theorem EncodeHeader.jge (r : Reg) (target : Word) : EncodeHeader.Statement (.jge r target) :=
  ⟨rfl, rfl, rfl⟩
theorem EncodeHeader.jlt (r : Reg) (target : Word) : EncodeHeader.Statement (.jlt r target) :=
  ⟨rfl, rfl, rfl⟩
theorem EncodeHeader.jle (r : Reg) (target : Word) : EncodeHeader.Statement (.jle r target) :=
  ⟨rfl, rfl, rfl⟩
theorem EncodeHeader.push (r : Reg) : EncodeHeader.Statement (.push r) :=
  ⟨rfl, rfl, rfl⟩
theorem EncodeHeader.pop (r : Reg) : EncodeHeader.Statement (.pop r) :=
  ⟨rfl, rfl, rfl⟩
theorem EncodeHeader.mul (r : Reg) (o : Operand) : EncodeHeader.Statement (.mul r o) :=
  ⟨rfl, rfl, rfl⟩
theorem EncodeHeader.div (r : Reg) (o : Operand) : EncodeHeader.Statement (.div r o) :=
  ⟨rfl, rfl, rfl⟩
theorem EncodeHeader.mod (r : Reg) (o : Operand) : EncodeHeader.Statement (.mod r o) :=
  ⟨rfl, rfl, rfl⟩
theorem EncodeHeader.wait (o : Operand) : EncodeHeader.Statement (.wait o) :=
  ⟨rfl, rfl, rfl⟩
theorem EncodeHeader.jsr (target : Word) : EncodeHeader.Statement (.jsr target) :=
  ⟨rfl, rfl, rfl⟩
theorem EncodeHeader.rts : EncodeHeader.Statement .rts :=
  ⟨rfl, rfl, rfl⟩
theorem EncodeHeader.sei : EncodeHeader.Statement .sei :=
  ⟨rfl, rfl, rfl⟩
theorem EncodeHeader.cli : EncodeHeader.Statement .cli :=
  ⟨rfl, rfl, rfl⟩
theorem EncodeHeader.rti : EncodeHeader.Statement .rti :=
  ⟨rfl, rfl, rfl⟩
theorem EncodeHeader.lda (o : Operand) : EncodeHeader.Statement (.lda o) :=
  ⟨rfl, rfl, rfl⟩
theorem EncodeHeader.ldx (o : Operand) : EncodeHeader.Statement (.ldx o) :=
  ⟨rfl, rfl, rfl⟩
theorem EncodeHeader.ldy (o : Operand) : EncodeHeader.Statement (.ldy o) :=
  ⟨rfl, rfl, rfl⟩
theorem EncodeHeader.ldz (o : Operand) : EncodeHeader.Statement (.ldz o) :=
  ⟨rfl, rfl, rfl⟩
theorem EncodeHeader.sta (o : Operand) : EncodeHeader.Statement (.sta o) :=
  ⟨rfl, rfl, rfl⟩
theorem EncodeHeader.stx (o : Operand) : EncodeHeader.Statement (.stx o) :=
  ⟨rfl, rfl, rfl⟩
theorem EncodeHeader.sty (o : Operand) : EncodeHeader.Statement (.sty o) :=
  ⟨rfl, rfl, rfl⟩
theorem EncodeHeader.stz (o : Operand) : EncodeHeader.Statement (.stz o) :=
  ⟨rfl, rfl, rfl⟩
theorem EncodeHeader.inc (o : Operand) : EncodeHeader.Statement (.inc o) :=
  ⟨rfl, rfl, rfl⟩
theorem EncodeHeader.dec (o : Operand) : EncodeHeader.Statement (.dec o) :=
  ⟨rfl, rfl, rfl⟩
theorem EncodeHeader.ldb (o : Operand) : EncodeHeader.Statement (.ldb o) :=
  ⟨rfl, rfl, rfl⟩
theorem EncodeHeader.ldc (o : Operand) : EncodeHeader.Statement (.ldc o) :=
  ⟨rfl, rfl, rfl⟩
theorem EncodeHeader.ldd (o : Operand) : EncodeHeader.Statement (.ldd o) :=
  ⟨rfl, rfl, rfl⟩
theorem EncodeHeader.lde (o : Operand) : EncodeHeader.Statement (.lde o) :=
  ⟨rfl, rfl, rfl⟩
theorem EncodeHeader.ldf (o : Operand) : EncodeHeader.Statement (.ldf o) :=
  ⟨rfl, rfl, rfl⟩
theorem EncodeHeader.ldg (o : Operand) : EncodeHeader.Statement (.ldg o) :=
  ⟨rfl, rfl, rfl⟩
theorem EncodeHeader.ldu (o : Operand) : EncodeHeader.Statement (.ldu o) :=
  ⟨rfl, rfl, rfl⟩
theorem EncodeHeader.ldv (o : Operand) : EncodeHeader.Statement (.ldv o) :=
  ⟨rfl, rfl, rfl⟩
theorem EncodeHeader.ldw (o : Operand) : EncodeHeader.Statement (.ldw o) :=
  ⟨rfl, rfl, rfl⟩
theorem EncodeHeader.stb (o : Operand) : EncodeHeader.Statement (.stb o) :=
  ⟨rfl, rfl, rfl⟩
theorem EncodeHeader.stc (o : Operand) : EncodeHeader.Statement (.stc o) :=
  ⟨rfl, rfl, rfl⟩
theorem EncodeHeader.std (o : Operand) : EncodeHeader.Statement (.std o) :=
  ⟨rfl, rfl, rfl⟩
theorem EncodeHeader.ste (o : Operand) : EncodeHeader.Statement (.ste o) :=
  ⟨rfl, rfl, rfl⟩
theorem EncodeHeader.stf (o : Operand) : EncodeHeader.Statement (.stf o) :=
  ⟨rfl, rfl, rfl⟩
theorem EncodeHeader.stg (o : Operand) : EncodeHeader.Statement (.stg o) :=
  ⟨rfl, rfl, rfl⟩
theorem EncodeHeader.stu (o : Operand) : EncodeHeader.Statement (.stu o) :=
  ⟨rfl, rfl, rfl⟩
theorem EncodeHeader.stv (o : Operand) : EncodeHeader.Statement (.stv o) :=
  ⟨rfl, rfl, rfl⟩
theorem EncodeHeader.stw (o : Operand) : EncodeHeader.Statement (.stw o) :=
  ⟨rfl, rfl, rfl⟩
theorem EncodeHeader.ldh (o : Operand) : EncodeHeader.Statement (.ldh o) :=
  ⟨rfl, rfl, rfl⟩
theorem EncodeHeader.lds (o : Operand) : EncodeHeader.Statement (.lds o) :=
  ⟨rfl, rfl, rfl⟩
theorem EncodeHeader.ldt (o : Operand) : EncodeHeader.Statement (.ldt o) :=
  ⟨rfl, rfl, rfl⟩
theorem EncodeHeader.sth (o : Operand) : EncodeHeader.Statement (.sth o) :=
  ⟨rfl, rfl, rfl⟩
theorem EncodeHeader.sts (o : Operand) : EncodeHeader.Statement (.sts o) :=
  ⟨rfl, rfl, rfl⟩
theorem EncodeHeader.stt (o : Operand) : EncodeHeader.Statement (.stt o) :=
  ⟨rfl, rfl, rfl⟩
theorem EncodeHeader.nop : EncodeHeader.Statement .nop :=
  ⟨rfl, rfl, rfl⟩
theorem EncodeHeader.halt : EncodeHeader.Statement .halt :=
  ⟨rfl, rfl, rfl⟩

end Sys2Proof.Laws
end

