-- ==== Sys2Proof/Tests/Slice0.lean ====
section
/-! SUPPORT. The model's own tests: well-formedness, decoding and encoding of words written out from the
spec's encodings, single steps with the results of 95_test_vectors.md (the row is named at each), and for
every statement with hypotheses a concrete state and operands that meet them. -/

namespace Sys2Proof.Tests

open Sys2Proof.Machine Sys2Proof.Claims

/-! ### Well-formedness (R85, R91) -/

/-- The constructors with a mode up to opcode 0x27, applied to one operand. -/
def withOperandA (o : Operand) : List Instr :=
  [.load .a o, .store .a o, .add .a o, .sub .a o, .and .a o, .or .a o, .xor .a o, .shl .a o, .shr .a o,
    .mul .a o, .div .a o, .mod .a o, .wait o, .lda o, .ldx o, .ldy o, .ldz o, .sta o, .stx o, .sty o, .stz o]

/-- The constructors with a mode from opcode 0x28 on, applied to one operand. -/
def withOperandB (o : Operand) : List Instr :=
  [.inc o, .dec o, .ldb o, .ldc o, .ldd o, .lde o, .ldf o, .ldg o, .ldu o, .ldv o, .ldw o, .stb o, .stc o,
    .std o, .ste o, .stf o, .stg o, .stu o, .stv o, .stw o, .ldh o, .lds o, .ldt o, .sth o, .sts o, .stt o]

/-- Every constructor with a mode, applied to one operand. -/
def withOperand (o : Operand) : List Instr := withOperandA o ++ withOperandB o

/-- A reserved mode with the code of a named mode is refused, in every instruction that has a mode. -/
theorem test_wellFormed_refuses_named_code :
    (withOperand ⟨.reserved 0x04#8, 0#32⟩).all (fun i => !i.wellFormed) = true := by decide

theorem test_wellFormed_accepts_first_reserved_code :
    (withOperand ⟨.reserved 0x05#8, 0xFFFFFFFF#32⟩).all (fun i => i.wellFormed) = true := by decide

/-! ### Decoding and encoding: bytes written out from R81, R85, R87, R94 -/

/-- Both directions on a canonical word. -/
abbrev codes (bytes : List Byte) (i : Instr) : Prop := decode bytes = .instr i ∧ encode i = bytes

theorem test_code_move :
    codes [0x01, 0x02, 0x02, 0x00, 0xF4, 0xFF, 0xFF, 0xFF] (.load .y ⟨.regIndirect, 0xFFFFFFF4#32⟩) ∧
    codes [0x20, 0x00, 0x00, 0x00, 0x78, 0x56, 0x34, 0x12] (.lda ⟨.immediate, 0x12345678#32⟩) ∧
    codes [0x21, 0x00, 0x01, 0x00, 0x0F, 0x00, 0x00, 0x00] (.ldx ⟨.register, 0x0F#32⟩) ∧
    codes [0x22, 0x00, 0x02, 0x00, 0x14, 0x00, 0x00, 0x00] (.ldy ⟨.regIndirect, 0x14#32⟩) ∧
    codes [0x23, 0x00, 0x03, 0x00, 0x00, 0x50, 0x00, 0x00] (.ldz ⟨.memIndirect, 0x5000#32⟩) ∧
    codes [0x3A, 0x00, 0x04, 0x00, 0x00, 0x50, 0x00, 0x00] (.ldb ⟨.direct, 0x5000#32⟩) ∧
    codes [0x3B, 0x00, 0x05, 0x00, 0x01, 0x00, 0x00, 0x00] (.ldc ⟨.reserved 0x05#8, 1#32⟩) ∧
    codes [0x3C, 0x00, 0xFF, 0x00, 0x01, 0x00, 0x00, 0x00] (.ldd ⟨.reserved 0xFF#8, 1#32⟩) ∧
    codes [0x3D, 0x00, 0x00, 0x00, 0xA7, 0x00, 0x00, 0x00] (.lde ⟨.immediate, 0xA7#32⟩) := by
  decide

theorem test_code_move_rest :
    codes [0x3E, 0x00, 0x00, 0x00, 0xA8, 0x00, 0x00, 0x00] (.ldf ⟨.immediate, 0xA8#32⟩) ∧
    codes [0x3F, 0x00, 0x00, 0x00, 0xA9, 0x00, 0x00, 0x00] (.ldg ⟨.immediate, 0xA9#32⟩) ∧
    codes [0x40, 0x00, 0x00, 0x00, 0xAA, 0x00, 0x00, 0x00] (.ldu ⟨.immediate, 0xAA#32⟩) ∧
    codes [0x41, 0x00, 0x00, 0x00, 0xAB, 0x00, 0x00, 0x00] (.ldv ⟨.immediate, 0xAB#32⟩) ∧
    codes [0x42, 0x00, 0x00, 0x00, 0xAC, 0x00, 0x00, 0x00] (.ldw ⟨.immediate, 0xAC#32⟩) ∧
    codes [0x4C, 0x00, 0x00, 0x00, 0xAD, 0x00, 0x00, 0x00] (.ldh ⟨.immediate, 0xAD#32⟩) ∧
    codes [0x4D, 0x00, 0x00, 0x00, 0xAE, 0x00, 0x00, 0x00] (.lds ⟨.immediate, 0xAE#32⟩) ∧
    codes [0x4E, 0x00, 0x00, 0x00, 0xAF, 0x00, 0x00, 0x00] (.ldt ⟨.immediate, 0xAF#32⟩) := by
  decide

theorem test_code_store :
    codes [0x02, 0x0F, 0x01, 0x00, 0x01, 0x00, 0x00, 0x00] (.store .w ⟨.register, 1#32⟩) ∧
    codes [0x24, 0x00, 0x04, 0x00, 0x00, 0x50, 0x00, 0x00] (.sta ⟨.direct, 0x5000#32⟩) ∧
    codes [0x25, 0x00, 0x04, 0x00, 0x04, 0x50, 0x00, 0x00] (.stx ⟨.direct, 0x5004#32⟩) ∧
    codes [0x26, 0x00, 0x04, 0x00, 0x08, 0x50, 0x00, 0x00] (.sty ⟨.direct, 0x5008#32⟩) ∧
    codes [0x27, 0x00, 0x04, 0x00, 0x0C, 0x50, 0x00, 0x00] (.stz ⟨.direct, 0x500C#32⟩) ∧
    codes [0x43, 0x00, 0x04, 0x00, 0x10, 0x50, 0x00, 0x00] (.stb ⟨.direct, 0x5010#32⟩) ∧
    codes [0x44, 0x00, 0x04, 0x00, 0x14, 0x50, 0x00, 0x00] (.stc ⟨.direct, 0x5014#32⟩) ∧
    codes [0x45, 0x00, 0x04, 0x00, 0x18, 0x50, 0x00, 0x00] (.std ⟨.direct, 0x5018#32⟩) ∧
    codes [0x46, 0x00, 0x04, 0x00, 0x1C, 0x50, 0x00, 0x00] (.ste ⟨.direct, 0x501C#32⟩) := by
  decide

theorem test_code_store_rest :
    codes [0x47, 0x00, 0x04, 0x00, 0x20, 0x50, 0x00, 0x00] (.stf ⟨.direct, 0x5020#32⟩) ∧
    codes [0x48, 0x00, 0x04, 0x00, 0x24, 0x50, 0x00, 0x00] (.stg ⟨.direct, 0x5024#32⟩) ∧
    codes [0x49, 0x00, 0x04, 0x00, 0x28, 0x50, 0x00, 0x00] (.stu ⟨.direct, 0x5028#32⟩) ∧
    codes [0x4A, 0x00, 0x04, 0x00, 0x2C, 0x50, 0x00, 0x00] (.stv ⟨.direct, 0x502C#32⟩) ∧
    codes [0x4B, 0x00, 0x04, 0x00, 0x30, 0x50, 0x00, 0x00] (.stw ⟨.direct, 0x5030#32⟩) ∧
    codes [0x4F, 0x00, 0x04, 0x00, 0x34, 0x50, 0x00, 0x00] (.sth ⟨.direct, 0x5034#32⟩) ∧
    codes [0x50, 0x00, 0x04, 0x00, 0x38, 0x50, 0x00, 0x00] (.sts ⟨.direct, 0x5038#32⟩) ∧
    codes [0x51, 0x00, 0x01, 0x00, 0x01, 0x00, 0x00, 0x00] (.stt ⟨.register, 1#32⟩) := by
  decide

theorem test_code_arithmetic :
    codes [0x03, 0x00, 0x00, 0x00, 0x01, 0x00, 0x00, 0x00] (.add .a ⟨.immediate, 1#32⟩) ∧
    codes [0x04, 0x01, 0x01, 0x00, 0x02, 0x00, 0x00, 0x00] (.sub .x ⟨.register, 2#32⟩) ∧
    codes [0x14, 0x00, 0x04, 0x00, 0x00, 0x30, 0x00, 0x00] (.mul .a ⟨.direct, 0x3000#32⟩) ∧
    codes [0x15, 0x00, 0x02, 0x00, 0x14, 0x00, 0x00, 0x00] (.div .a ⟨.regIndirect, 0x14#32⟩) ∧
    codes [0x16, 0x00, 0x00, 0x00, 0x0A, 0x00, 0x00, 0x00] (.mod .a ⟨.immediate, 10#32⟩) ∧
    codes [0x28, 0x00, 0x01, 0x00, 0x35, 0x00, 0x00, 0x00] (.inc ⟨.register, 0x35#32⟩) ∧
    codes [0x29, 0x00, 0x02, 0x00, 0x01, 0x00, 0x00, 0x00] (.dec ⟨.regIndirect, 1#32⟩) := by
  decide

theorem test_code_logic_and_shifts :
    codes [0x05, 0x00, 0x01, 0x00, 0x01, 0x00, 0x00, 0x00] (.and .a ⟨.register, 1#32⟩) ∧
    codes [0x09, 0x00, 0x04, 0x00, 0x00, 0x50, 0x00, 0x00] (.or .a ⟨.direct, 0x5000#32⟩) ∧
    codes [0x0A, 0x01, 0x02, 0x00, 0x04, 0x00, 0x00, 0x00] (.xor .x ⟨.regIndirect, 4#32⟩) ∧
    codes [0x0D, 0x0F, 0x00, 0x00, 0x00, 0x00, 0x00, 0x00] (.not .w) ∧
    codes [0x0B, 0x00, 0x00, 0x00, 0x04, 0x00, 0x00, 0x00] (.shl .a ⟨.immediate, 4#32⟩) ∧
    codes [0x0C, 0x00, 0x01, 0x00, 0x01, 0x00, 0x00, 0x00] (.shr .a ⟨.register, 1#32⟩) := by
  decide

theorem test_code_branches :
    codes [0x06, 0x00, 0x00, 0x00, 0x03, 0x10, 0x00, 0x00] (.jmp 0x1003#32) ∧
    codes [0x07, 0x00, 0x00, 0x00, 0x20, 0x10, 0x00, 0x00] (.jnz .a 0x1020#32) ∧
    codes [0x08, 0x01, 0x00, 0x00, 0x20, 0x10, 0x00, 0x00] (.jz .x 0x1020#32) ∧
    codes [0x0E, 0x0A, 0x00, 0x00, 0x20, 0x10, 0x00, 0x00] (.jgt .h 0x1020#32) ∧
    codes [0x0F, 0x0B, 0x00, 0x00, 0x20, 0x10, 0x00, 0x00] (.jge .s 0x1020#32) ∧
    codes [0x10, 0x0C, 0x00, 0x00, 0xF8, 0xFF, 0xFF, 0xFF] (.jlt .t 0xFFFFFFF8#32) ∧
    codes [0x11, 0x0D, 0x00, 0x00, 0x20, 0x10, 0x00, 0x00] (.jle .u 0x1020#32) := by
  decide

theorem test_code_stack_interrupt_system :
    codes [0x12, 0x0F, 0x00, 0x00, 0x00, 0x00, 0x00, 0x00] (.push .w) ∧
    codes [0x13, 0x0E, 0x00, 0x00, 0x00, 0x00, 0x00, 0x00] (.pop .v) ∧
    codes [0x18, 0x00, 0x00, 0x00, 0x00, 0x11, 0x00, 0x00] (.jsr 0x1100#32) ∧
    codes [0x19, 0x00, 0x00, 0x00, 0x00, 0x00, 0x00, 0x00] .rts ∧
    codes [0x1A, 0x00, 0x00, 0x00, 0x00, 0x00, 0x00, 0x00] .sei ∧
    codes [0x1B, 0x00, 0x00, 0x00, 0x00, 0x00, 0x00, 0x00] .cli ∧
    codes [0x1C, 0x00, 0x00, 0x00, 0x00, 0x00, 0x00, 0x00] .rti ∧
    codes [0x17, 0x00, 0x00, 0x00, 0xE8, 0x03, 0x00, 0x00] (.wait ⟨.immediate, 1000#32⟩) ∧
    codes [0xEE, 0x00, 0x00, 0x00, 0x00, 0x00, 0x00, 0x00] .nop ∧
    codes [0xFF, 0x00, 0x00, 0x00, 0x00, 0x00, 0x00, 0x00] .halt := by
  decide

/-- E1, E5, E7, E9: ignored nibbles, bytes and fields. -/
theorem test_decode_ignored_fields :
    decode [0x01, 0x1F, 0x00, 0xAB, 0x05, 0x00, 0x00, 0x00] = .instr (.load .w ⟨.immediate, 5#32⟩) ∧
    decode [0x0D, 0x00, 0x04, 0x99, 0x11, 0x22, 0x33, 0x44] = .instr (.not .a) ∧
    decode [0x01, 0x00, 0x10, 0x00, 0x77, 0x00, 0x00, 0x00] = .instr (.load .a ⟨.reserved 0x10#8, 0x77#32⟩) ∧
    decode [0x06, 0x55, 0x04, 0x66, 0x00, 0x20, 0x00, 0x00] = .instr (.jmp 0x2000#32) := by
  decide

/-- R80 and R89: a wrong length and the edges of the reserved ranges are rejected by name. -/
theorem test_decode_rejects :
    decode [0x01, 0x00] = .rejected (.wrongLength 2) ∧
    (([0x00, 0x1D, 0x1F, 0x2A, 0x39, 0x52, 0xED, 0xEF, 0xFE] : List Byte).all fun b =>
      decide (decode [b, 0, 0, 0, 0, 0, 0, 0] = .rejected (.reservedOpcode b))) = true := by
  decide

/-- The host's numbering: bit 0 is the least significant bit of the first byte (B.1 of the manual). -/
theorem test_decodeTableWord :
    decodeTableWord 64 0x1234567800000020 = some (.lda ⟨.immediate, 0x12345678#32⟩) ∧
    decodeTableWord 8 0xEE = some .nop ∧ decodeTableWord 64 0x2A = none := by
  decide

/-! ### Single steps, with the results of 95_test_vectors.md -/

/-- The reset state with registers and words of memory set, and one instruction at PC. -/
def place (regs : List (Reg × Word)) (words : List (Nat × Word)) (raw : RawInstr) : State :=
  let s := regs.foldl (fun s p => s.setReg p.1 p.2) State.reset
  s.setMem ((words.foldl (fun m p => m.writeWord p.1 p.2) s.mem).writeRaw 0x1000 raw)

/-- Whether a step gives a next state with a property. -/
def gives (s : State) (p : State → Bool) : Bool :=
  match step s with
  | .next t => p t
  | _ => false

/-- Whether the step leaves PC at the next instruction and one register at a value. -/
def setsReg (s : State) (r : Reg) (v : Word) : Bool :=
  gives s fun t => t.getReg r == v && t.pc == 0x1008#32

/-- Whether the step leaves PC at the next instruction and one word of memory at a value. -/
def setsWord (s : State) (a : Nat) (v : Word) : Bool :=
  gives s fun t => t.mem.readWord a == v && t.pc == 0x1008#32

/-- Whether the step stops with a cause and leaves registers, SP and memory as they were. -/
def stopsWith (s : State) (c : StopCause) : Bool :=
  gives s fun t => decide (t.run = .stopped c ∧ t.regs = s.regs ∧ t.sp = s.sp ∧ t.mem = s.mem)

/-- L6: the sum of base and offset wraps. -/
theorem test_load_regIndirect_wraps :
    setsReg (place [(.b, 0xF0005000#32)] [(0x5000, 0x77778888#32)] ⟨0x01, 0x02, 0x02, 0x00, 0x04, 0x00, 0x00, 0x10⟩)
      .y 0x77778888#32 = true := by decide

/-- L10: a misaligned read. -/
theorem test_load_misaligned :
    setsReg (place [] [(0x5000, 0x44332211#32), (0x5004, 0x88776655#32)]
      ⟨0x01, 0x00, 0x04, 0x00, 0x01, 0x50, 0x00, 0x00⟩) .a 0x55443322#32 = true := by decide

/-- L14 to L29: the dedicated loads. -/
theorem test_dedicated_loads :
    ([(0x20, .a), (0x21, .x), (0x22, .y), (0x23, .z), (0x3A, .b), (0x3B, .c), (0x3C, .d), (0x3D, .e), (0x3E, .f),
      (0x3F, .g), (0x40, .u), (0x41, .v), (0x42, .w), (0x4C, .h), (0x4D, .s), (0x4E, .t)] : List (Byte × Reg)).all (fun p =>
        setsReg (place [] [] ⟨p.1, 0xFF, 0x00, 0x00, 0xA0, 0x00, 0x00, 0x80⟩) p.2 0x800000A0#32) = true := by
  decide

/-- L33: read-style memory-indirect is one level only. -/
theorem test_ldw_memIndirect_one_level :
    setsReg (place [] [(0x5000, 0x6000#32), (0x6000, 1#32)] ⟨0x42, 0x00, 0x03, 0x00, 0x00, 0x50, 0x00, 0x00⟩)
      .w 0x6000#32 = true := by decide

/-- S3: register mode stores to the address in the field, not to the register's contents. -/
theorem test_store_register_mode :
    setsWord (place [(.a, 0xAABBCCDD#32), (.x, 0x5000#32)] [] ⟨0x02, 0x00, 0x01, 0x00, 0x01, 0x00, 0x00, 0x00⟩)
      1 0xAABBCCDD#32 = true := by decide

/-- S7: store-style memory-indirect reads the pointer. -/
theorem test_store_memIndirect :
    setsWord (place [(.a, 0xAABBCCDD#32)] [(0x5000, 0x6000#32)] ⟨0x02, 0x00, 0x03, 0x00, 0x00, 0x50, 0x00, 0x00⟩)
      0x6000 0xAABBCCDD#32 = true := by decide

/-- S12 to S27: the dedicated stores. -/
theorem test_dedicated_stores :
    ([(0x24, .a), (0x25, .x), (0x26, .y), (0x27, .z), (0x43, .b), (0x44, .c), (0x45, .d), (0x46, .e), (0x47, .f),
      (0x48, .g), (0x49, .u), (0x4A, .v), (0x4B, .w), (0x4F, .h), (0x50, .s), (0x51, .t)] : List (Byte × Reg)).all (fun p =>
        setsWord (place [(p.2, 0xB0#32)] [] ⟨p.1, 0xFF, 0x04, 0x00, 0x00, 0x50, 0x00, 0x00⟩) 0x5000 0xB0#32) =
      true := by
  decide

/-- S31: a store into the instruction stream; the opcode byte there is that of HALT. -/
theorem test_sta_into_code :
    setsWord (place [(.a, 0xFF#32)] [] ⟨0x24, 0x00, 0x00, 0x00, 0x10, 0x10, 0x00, 0x00⟩) 0x1010 0xFF#32 = true := by
  decide

/-- A1. -/
theorem test_add_wraps :
    setsReg (place [(.a, 0xFFFFFFFF#32)] [] ⟨0x03, 0x00, 0x00, 0x00, 0x01, 0x00, 0x00, 0x00⟩) .a 0#32 = true := by
  decide

/-- A6. -/
theorem test_sub_wraps :
    setsReg (place [(.x, 5#32), (.y, 7#32)] [] ⟨0x04, 0x01, 0x01, 0x00, 0x02, 0x00, 0x00, 0x00⟩) .x 0xFFFFFFFE#32 =
      true := by decide

/-- A14. -/
theorem test_mul_wraps :
    setsReg (place [(.a, 0x6789A#32)] [] ⟨0x14, 0x00, 0x00, 0x00, 0x45, 0x23, 0x01, 0x00⟩) .a 0x5CD58F82#32 =
      true := by decide

/-- A17: unsigned. -/
theorem test_div_unsigned :
    setsReg (place [(.a, 0x80000000#32), (.x, 0xFFFFFFFF#32)] [] ⟨0x15, 0x00, 0x01, 0x00, 0x01, 0x00, 0x00, 0x00⟩)
      .a 0#32 = true := by decide

/-- A23: a reserved mode resolves to 0, so the division stops. -/
theorem test_div_reserved_mode_stops :
    stopsWith (place [(.a, 0x1234#32)] [] ⟨0x15, 0x00, 0x05, 0x00, 0x07, 0x00, 0x00, 0x00⟩) .divideByZero = true := by
  decide

/-- A25. -/
theorem test_mod_unsigned :
    setsReg (place [(.a, 0xFFFFFFFF#32)] [] ⟨0x16, 0x00, 0x00, 0x00, 0x0A, 0x00, 0x00, 0x00⟩) .a 5#32 = true := by
  decide

/-- A28. -/
theorem test_mod_zero_stops :
    stopsWith (place [(.a, 7#32)] [] ⟨0x16, 0x00, 0x00, 0x00, 0x00, 0x00, 0x00, 0x00⟩) .divideByZero = true := by
  decide

/-- A31: register mode uses the low nibble of the field. -/
theorem test_inc_register :
    setsReg (place [(.c, 1#32)] [] ⟨0x28, 0x00, 0x01, 0x00, 0x35, 0x00, 0x00, 0x00⟩) .c 2#32 = true := by decide

/-- A36: a reserved mode changes the word at the field. -/
theorem test_inc_reserved_mode :
    setsWord (place [] [(0x5000, 0x10#32)] ⟨0x28, 0x00, 0x20, 0x00, 0x00, 0x50, 0x00, 0x00⟩) 0x5000 0x11#32 = true := by
  decide

/-- A38. -/
theorem test_dec_wraps :
    setsReg (place [] [] ⟨0x29, 0x00, 0x01, 0x00, 0x0F, 0x00, 0x00, 0x00⟩) .w 0xFFFFFFFF#32 = true := by decide

/-- A42. -/
theorem test_dec_memIndirect :
    setsWord (place [] [(0x5000, 0x6000#32), (0x6000, 0x10#32)] ⟨0x29, 0x00, 0x03, 0x00, 0x00, 0x50, 0x00, 0x00⟩)
      0x6000 0x0F#32 = true := by decide

/-- G2. -/
theorem test_and :
    setsReg (place [(.a, 0xFFFF0000#32), (.x, 0x0FF00FF0#32)] [] ⟨0x05, 0x00, 0x01, 0x00, 0x01, 0x00, 0x00, 0x00⟩)
      .a 0x0FF00000#32 = true := by decide

/-- G4. -/
theorem test_or :
    setsReg (place [(.a, 0x12345678#32)] [] ⟨0x09, 0x00, 0x00, 0x00, 0x0F, 0x0F, 0x0F, 0x0F⟩) .a 0x1F3F5F7F#32 =
      true := by decide

/-- G8. -/
theorem test_xor :
    setsReg (place [(.x, 0xFF00FF00#32), (.b, 0x5000#32)] [(0x5000, 0x0FF00FF0#32)]
      ⟨0x0A, 0x01, 0x02, 0x00, 0x04, 0x00, 0x00, 0x00⟩) .x 0xF0F0F0F0#32 = true := by decide

/-- G9. -/
theorem test_not :
    setsReg (place [(.a, 0x12345678#32)] [] ⟨0x0D, 0x00, 0x00, 0x00, 0x00, 0x00, 0x00, 0x00⟩) .a 0xEDCBA987#32 =
      true := by decide

/-- H1. -/
theorem test_shl :
    setsReg (place [(.a, 0x12345678#32)] [] ⟨0x0B, 0x00, 0x00, 0x00, 0x04, 0x00, 0x00, 0x00⟩) .a 0x23456780#32 =
      true := by decide

/-- H6: the count is not taken modulo 32. -/
theorem test_shl_by_33 :
    setsReg (place [(.a, 0xFFFFFFFF#32)] [] ⟨0x0B, 0x00, 0x00, 0x00, 0x21, 0x00, 0x00, 0x00⟩) .a 0#32 = true := by
  decide

/-- H11: zero enters at bit 31. -/
theorem test_shr_logical :
    setsReg (place [(.a, 0x80000000#32)] [] ⟨0x0C, 0x00, 0x00, 0x00, 0x01, 0x00, 0x00, 0x00⟩) .a 0x40000000#32 =
      true := by decide

/-- B3: an unaligned target is loaded unchanged. -/
theorem test_jmp_unaligned :
    gives (place [] [] ⟨0x06, 0x00, 0x00, 0x00, 0x03, 0x10, 0x00, 0x00⟩) (fun t => t.pc == 0x1003#32) = true := by
  decide

/-- The values of A in the branch table of part 2.7. -/
def branchValues : List Word := [0x00000000#32, 0x00000001#32, 0x7FFFFFFF#32, 0x80000000#32, 0xFFFFFFFF#32]

/-- The branch table of part 2.7: taken or not for each value of A. -/
theorem test_branch_table :
    ([(0x07, [false, true, true, true, true]), (0x08, [true, false, false, false, false]),
      (0x0E, [false, true, true, false, false]), (0x0F, [true, true, true, false, false]),
      (0x10, [false, false, false, true, true]), (0x11, [true, false, false, true, true])] : List (Byte × List Bool)).all (fun p =>
        (branchValues.zip p.2).all fun q =>
          gives (place [(.a, q.1)] [] ⟨p.1, 0x00, 0x01, 0x00, 0x20, 0x10, 0x00, 0x00⟩) fun t =>
            t.pc == if q.2 then 0x1020#32 else 0x1008#32) = true := by
  decide

/-- K1. -/
theorem test_push :
    setsWord (place [(.w, 0x11223344#32)] [] ⟨0x12, 0x0F, 0x00, 0x00, 0x00, 0x00, 0x00, 0x00⟩) 0x9EFFC
      0x11223344#32 = true := by decide

/-- K2 and K4: the lowest legal push, and the first stack pointer below it. -/
theorem test_push_boundary :
    gives ((place [] [] ⟨0x12, 0x00, 0x00, 0x00, 0x00, 0x00, 0x00, 0x00⟩).setSp 0x2004#32)
      (fun t => t.sp == 0x2000#32) = true ∧
    stopsWith ((place [] [] ⟨0x12, 0x00, 0x00, 0x00, 0x00, 0x00, 0x00, 0x00⟩).setSp 0x2003#32) .stackOverflow =
      true := by
  decide

/-- K5. -/
theorem test_pop :
    gives ((place [] [(0x9EFFC, 0x11223344#32)] ⟨0x13, 0x01, 0x00, 0x00, 0x00, 0x00, 0x00, 0x00⟩).setSp 0x9EFFC#32)
      (fun t => t.getReg .x == 0x11223344#32 && t.sp == 0x9F000#32) = true := by decide

/-- K6. -/
theorem test_pop_empty_stops :
    stopsWith (place [(.x, 5#32)] [] ⟨0x13, 0x01, 0x00, 0x00, 0x00, 0x00, 0x00, 0x00⟩) .stackUnderflow = true := by
  decide

/-- K10: the return address is that of the next instruction. -/
theorem test_jsr :
    gives (place [] [] ⟨0x18, 0x0F, 0x02, 0xFF, 0x00, 0x11, 0x00, 0x00⟩)
      (fun t => t.pc == 0x1100#32 && t.mem.readWord 0x9EFFC == 0x1008#32) = true := by decide

/-- K9. -/
theorem test_jsr_overflow_stops :
    stopsWith ((place [] [] ⟨0x18, 0x00, 0x00, 0x00, 0x00, 0x11, 0x00, 0x00⟩).setSp 0x2000#32) .stackOverflow =
      true := by decide

/-- K13: the popped value is not checked. -/
theorem test_rts_unaligned :
    gives ((place [] [(0x9EFFC, 0x1235#32)] ⟨0x19, 0x00, 0x00, 0x00, 0x00, 0x00, 0x00, 0x00⟩).setSp 0x9EFFC#32)
      (fun t => t.pc == 0x1235#32 && t.sp == 0x9F000#32) = true := by decide

/-- I1 and I4: on IE32 SEI enables and CLI disables. -/
theorem test_sei_and_cli :
    gives (place [] [] ⟨0x1A, 0x00, 0x00, 0x00, 0x00, 0x00, 0x00, 0x00⟩) (fun t => t.ie && t.pc == 0x1008#32) = true ∧
    gives ((place [] [] ⟨0x1B, 0x00, 0x00, 0x00, 0x00, 0x00, 0x00, 0x00⟩).setIe true)
      (fun t => !t.ie && t.pc == 0x1008#32) = true := by
  decide

/-- I8: the interrupt-enable latch is untouched. -/
theorem test_rti :
    gives ((((place [] [(0x9EFFC, 0x1018#32)] ⟨0x1C, 0x00, 0x00, 0x00, 0x00, 0x00, 0x00, 0x00⟩).setSp
      0x9EFFC#32).setIe true).setInirq true) (fun t => t.pc == 0x1018#32 && !t.inirq && t.ie) = true := by decide

/-- I7: the latch stays set when the stack is empty. -/
theorem test_rti_empty_stops :
    gives ((place [] [] ⟨0x1C, 0x00, 0x00, 0x00, 0x00, 0x00, 0x00, 0x00⟩).setInirq true)
      (fun t => decide (t.run = .stopped .stackUnderflow) && t.inirq) = true := by decide

/-- I12 and E8: WAIT and NOP change nothing but PC. -/
theorem test_wait_and_nop :
    gives (place [] [(0x5000, 5#32)] ⟨0x17, 0x00, 0x04, 0x00, 0x00, 0x50, 0x00, 0x00⟩)
      (fun t => decide (t.regs = Regs.zero) && t.pc == 0x1008#32) = true ∧
    gives (place [] [] ⟨0xEE, 0xFF, 0xFF, 0xFF, 0xFF, 0xFF, 0xFF, 0xFF⟩)
      (fun t => decide (t.regs = Regs.zero) && t.pc == 0x1008#32) = true := by
  decide

/-- I14. -/
theorem test_halt :
    gives (place [] [] ⟨0xFF, 0x00, 0x00, 0x00, 0x00, 0x00, 0x00, 0x00⟩)
      (fun t => decide (t.run = .stopped .halt) && t.pc == 0x1000#32) = true := by decide

/-- I17: a reserved opcode resolves no operand and leaves PC. -/
theorem test_reserved_opcode :
    gives (place [] [(0x5000, 1#32)] ⟨0x2A, 0x01, 0x04, 0x00, 0x00, 0x50, 0x00, 0x00⟩)
      (fun t => decide (t.run = .stopped .reservedOpcode) && t.pc == 0x1000#32) = true := by decide

/-- The state of the timer vectors T1 to T20: `INC A` at PC, the handler address 0x1100 at address 0. -/
def timed (count period : Word) (pre : Fin Config.timerDivider) (ie : Bool) : State :=
  { place [] [(0, 0x1100#32)] ⟨0x28, 0x00, 0x01, 0x00, 0x00, 0x00, 0x00, 0x00⟩ with
    tEn := true
    tCount := count
    tPeriod := period
    tPre := pre
    ie := ie }

/-- T3, T4 and T5: the prescaler, the countdown, and a countdown of 0. -/
theorem test_timer_counts :
    gives (timed 5#32 0#32 44098 false) (fun t => t.tPre == 44099 && t.tCount == 5#32) = true ∧
    gives (timed 5#32 0#32 44099 false) (fun t => t.tPre == 0 && t.tCount == 4#32) = true ∧
    gives (timed 0#32 9#32 44099 false) (fun t => t.tPre == 0 && t.tCount == 0#32) = true := by
  decide

/-- T6 and T7: an expiry with interrupts disabled, or inside a handler, enters nothing. -/
theorem test_timer_expiry_lost :
    gives (timed 1#32 3#32 44099 false) (fun t => decide (t.tState = .expired) && t.tCount == 3#32 && t.sp == 0x9F000#32) =
      true ∧
    gives ((timed 1#32 3#32 44099 true).setInirq true)
      (fun t => decide (t.tState = .expired) && t.tCount == 3#32 && t.sp == 0x9F000#32) = true := by
  decide

/-- T8 and T9: the entry, under both readings of IRQ_BODY. -/
theorem test_interrupt_entry :
    (match startBodyWith .abandons (timed 1#32 3#32 44099 true) with
      | .error (.ended t) => t.pc == 0x1100#32 && t.mem.readWord 0x9EFFC == 0x1000#32 && t.inirq && t.tCount == 3#32
      | _ => false) = true ∧
    (match startBodyWith .continues (timed 1#32 3#32 44099 true) with
      | .ok t => t.pc == 0x1100#32 && t.sp == 0x9EFFC#32 && t.inirq && t.ie
      | _ => false) = true := by
  decide

/-- T17: an entry at STACK_BOTTOM stops the processor and A is not incremented. -/
theorem test_interrupt_entry_overflow :
    stopsWith ((timed 1#32 3#32 44099 true).setSp 0x2000#32) .stackOverflow = true := by decide

/-- T18: an entry one word above STACK_BOTTOM. -/
theorem test_interrupt_entry_lowest :
    (match startBodyWith .abandons ((timed 1#32 3#32 44099 true).setSp 0x2004#32) with
      | .error (.ended t) => t.sp == 0x2000#32 && t.mem.readWord 0x2000 == 0x1000#32
      | _ => false) = true := by
  decide

/-- T20: the timer step runs before the stop of a reserved opcode. -/
theorem test_reserved_opcode_after_timer :
    gives ((timed 5#32 0#32 7 false).setMem []) (fun t => t.tPre == 8 && decide (t.run = .stopped .reservedOpcode)) =
      true := by decide

/-! ### The hypotheses of the statements are met

For each statement with hypotheses, a concrete state and operands that meet all of them together, and for a
statement with clauses one for each clause, at a boundary of its range where it has one. -/

/-- With the timer disabled the body runs in the state the step began in. -/
theorem startBody_reset : startBody State.reset = .ok State.reset := startBody_of_disabled rfl

/-- An operand in memory that ends at the top of the address space, read at reset. -/
theorem resolve_top : resolve ⟨.direct, 0xFFFFFFFC#32⟩ State.reset = .ok 0#32 :=
  memRead_eq_ok.2 ⟨by decide, by decide⟩

theorem witness_DecodeOfEncodeIsTheInstruction :
    (Instr.load .w ⟨.reserved 0x05#8, 0xFFFFFFFF#32⟩).wellFormed = true := by decide

theorem witness_DecodedBytesEncodeCanonically :
    decodeRaw ⟨0x01, 0x1F, 0x10, 0xAB, 0x05, 0x00, 0x00, 0x00⟩ = some (.load .w ⟨.reserved 0x10#8, 5#32⟩) := by
  decide

/-- NOT A with every ignored bit set, against its canonical encoding. -/
theorem witness_IgnoredFieldsNeverMatter :
    let raw : RawInstr := ⟨0x0D, 0xF0, 0xFF, 0xFF, 0xFF, 0xFF, 0xFF, 0xFF⟩
    let raw' : RawInstr := ⟨0x0D, 0x00, 0x00, 0x00, 0x00, 0x00, 0x00, 0x00⟩
    raw.opcode = raw'.opcode ∧ (raw.opcode ∈ usesReg → raw.reg &&& 0x0F#8 = raw'.reg &&& 0x0F#8) ∧
      (raw.opcode ∈ usesMode → raw.mode = raw'.mode) ∧
      (raw.opcode ∈ usesOperand32 → raw.operand32 = raw'.operand32) := by
  decide

theorem witness_ReservedOpcodesStopTheProcessor :
    State.reset.run = .running ∧ fetch State.reset = .ok ⟨0, 0, 0, 0, 0, 0, 0, 0⟩ ∧ isReservedOpcode 0x00#8 ∧
      startBody State.reset = .ok State.reset :=
  ⟨rfl, fetch_eq_ok.2 ⟨by decide, by decide⟩, by unfold isReservedOpcode; decide, startBody_reset⟩

/-- The edges of the reserved ranges, and their neighbours that are instructions. -/
theorem witness_reserved_ranges :
    (∀ b ∈ ([0x1D, 0x1F, 0x2A, 0x39, 0x52, 0xED, 0xEF, 0xFE] : List Byte), isReservedOpcode b) ∧
      ∀ b ∈ ([0x01, 0x1C, 0x20, 0x29, 0x3A, 0x51, 0xEE, 0xFF] : List Byte), ¬ isReservedOpcode b := by
  unfold isReservedOpcode
  decide

/-- The state of the vectors with NOP at PC. -/
def atNop : State := place [] [] ⟨0xEE, 0x00, 0x00, 0x00, 0x00, 0x00, 0x00, 0x00⟩

theorem witness_StepRunsTheDecodedInstruction :
    atNop.run = .running ∧ atNop.backs atNop.pc 8 = true ∧
      decode ((List.range 8).map fun k => atNop.readByte (atNop.pc.toNat + k)) = .instr .nop := by
  decide

/-- One byte too high, and the highest fetch with its last byte not installed. -/
theorem witness_FetchOutsideMemoryIsRefused :
    ((State.reset.setPc 0xFFFFFFF9#32).run = .running ∧
      2 ^ 32 < (State.reset.setPc 0xFFFFFFF9#32).pc.toNat + 8) ∧
    let s := { State.reset.setPc 0xFFFFFFF8#32 with installed := [⟨0, 0xFFFFFFFF⟩] }
    s.run = .running ∧ s.pc.toNat + 8 ≤ 2 ^ 32 ∧ ∃ k < 8, s.isInstalled (s.pc.toNat + k) = false :=
  ⟨by decide, by decide, by decide, 7, by decide, by decide⟩

theorem witness_DataAccessOutsideMemoryIsRefused :
    2 ^ 32 < (0xFFFFFFFD#32 : Word).toNat + 4 ∧ (0xFFFFFFFC#32 : Word).toNat + 4 ≤ 2 ^ 32 ∧
      ∃ k < 4, ({ State.reset with installed := [⟨0, 0xFFFFFFFF⟩] } : State).isInstalled
        ((0xFFFFFFFC#32 : Word).toNat + k) = false :=
  ⟨by decide, by decide, 3, by decide, by decide⟩

theorem witness_StoppedProcessorTakesNoStep : (State.reset.setStopped .halt).run = .stopped .halt := rfl

theorem witness_EachRegisterHoldsWhatWasWritten : Reg.a ≠ Reg.w := by decide

theorem witness_WordReadIsLittleEndian :
    State.reset.backs 0xFFFFFFFC#32 4 = true ∧ State.reset.backs 0x00000003#32 4 = true := by decide

theorem witness_WordWriteStoresFourBytes : State.reset.backs 0x00000001#32 4 = true := by decide

theorem witness_OverlappingWordsShareThreeBytes :
    State.reset.backs 0xFFFFFFFB#32 4 = true ∧ State.reset.backs (0xFFFFFFFB#32 + 1#32) 4 = true := by decide

/-- A store that overlaps only the last byte of the fetch. -/
theorem witness_StoresAreSeenByTheNextFetch :
    State.reset.backs 0x1007#32 4 = true ∧ State.reset.backs State.reset.pc 8 = true ∧
      State.reset.pc.toNat + 7 = (0x1007#32 : Word).toNat + 0 ∧
      State.reset.pc.toNat + 6 < (0x1007#32 : Word).toNat := by
  decide

theorem witness_ReadOperandByModeByte : 5 ≤ (0x05#8 : Byte).toNat ∧ 5 ≤ (0xFF#8 : Byte).toNat := by decide

theorem witness_StoreTargetByModeByte :
    (0x05#8 : Byte) ≠ 0x03#8 ∧ 5 ≤ (0x05#8 : Byte).toNat ∧ 5 ≤ (0xFF#8 : Byte).toNat := by decide

/-- The clauses of the timer step, in order; the entry of the sixth at the lowest stack pointer that
holds it. -/
theorem witness_TimerStepFollowsItsRule :
    State.reset.tEn = false ∧
    ((timed 5#32 0#32 44098 false).tEn = true ∧ (44099 : Fin 44100).val = (timed 5#32 0#32 44098 false).tPre.val + 1) ∧
    ((timed 0#32 9#32 44099 true).tPre.val = 44099 ∧ (timed 0#32 9#32 44099 true).tCount = 0#32) ∧
    ((timed 2#32 9#32 44099 true).tPre.val = 44099 ∧ 2 ≤ (timed 2#32 9#32 44099 true).tCount.toNat) ∧
    ((timed 1#32 9#32 44099 false).tPre.val = 44099 ∧ (timed 1#32 9#32 44099 false).ie = false) ∧
    ((timed 1#32 9#32 44099 true).tPre.val = 44099 ∧ (timed 1#32 9#32 44099 true).ie = true ∧
      (timed 1#32 9#32 44099 true).inirq = false ∧
      ∃ e, interruptEntry { (timed 1#32 9#32 44099 true).setSp 0x2001#32 with
        tPre := 0, tCount := 0#32, tState := .expired } = .ok e) ∧
    ((timed 1#32 9#32 44099 true).setSp 0x2000#32).sp.toNat ≤ 0x2000 ∧
    (∃ u, timerStep ((timed 1#32 9#32 44099 true).setSp 0x2001#32) = .ok (u, true)) ∧
    (∃ u, timerStep ((timed 1#32 9#32 44099 true).setSp 0x2000#32) = .error (.ended u)) ∧
    (∃ t, execReservedOpcode ((timed 1#32 9#32 44099 true).setSp 0x2000#32) = .next t) ∧
    ((∃ u, timerStep (timed 1#32 9#32 44099 false) = .ok (u, false)) ∧
      (∃ t, exec .halt (timed 1#32 9#32 44099 false) = .next t) ∧
      ∃ t, execReservedOpcode (timed 1#32 9#32 44099 false) = .next t) :=
  ⟨rfl, by decide, by decide, by decide, by decide, ⟨by decide, rfl, rfl, _, rfl⟩, by decide,
    ⟨_, rfl⟩, ⟨_, rfl⟩, ⟨_, rfl⟩, ⟨_, rfl⟩, ⟨_, rfl⟩, _, rfl⟩

/-- A state in which an interrupt is due, with the stack pointer one above the bound of the entry. -/
def dueLow : State := (timed 1#32 3#32 44099 true).setSp 0x2001#32

/-- A state in which an interrupt is due, with the stack pointer at the bound of the entry. -/
def dueFull : State := (timed 1#32 3#32 44099 true).setSp 0x2000#32

theorem witness_InterruptIsEnteredExactlyWhenDue :
    (∃ t, timerStep dueLow = .ok (t, true)) ∧ dueLow.tEn = true ∧ dueLow.tPre.val = 44099 ∧ dueLow.tCount = 1#32 ∧
      dueLow.ie = true ∧ dueLow.inirq = false ∧ 0x2000 < dueLow.sp.toNat ∧
      dueLow.backs (dueLow.sp - 4#32) 4 = true ∧ dueLow.backs 0#32 4 = true :=
  ⟨⟨_, rfl⟩, by decide⟩

theorem witness_InterruptEntryPushesAndVectors :
    0x2000 < dueLow.sp.toNat ∧ dueLow.backs (dueLow.sp - 4#32) 4 = true ∧ dueLow.backs 0#32 4 = true := by decide

/-- An instruction with a read-style operand, and one without. -/
theorem witness_EntryComesBeforeTheBodyOfAnyInstruction :
    dueLow.interruptDue = true ∧ 0x2000 < dueLow.sp.toNat ∧ dueLow.backs (dueLow.sp - 4#32) 4 = true ∧
      dueLow.backs 0#32 4 = true ∧
      (∀ o, readOperand (.lda ⟨.direct, 0xFFFFFFFC#32⟩) = some o → ∃ v, resolve o dueLow = .ok v) ∧
      ∀ o, readOperand .rts = some o → ∃ v, resolve o dueLow = .ok v :=
  ⟨by decide, by decide, by decide, by decide, fun _ h => by cases h; exact ⟨_, rfl⟩, fun _ h => nomatch h⟩

theorem witness_EntryOverflowStopsAnyInstruction :
    dueFull.interruptDue = true ∧ dueFull.sp.toNat ≤ 0x2000 ∧
      ∀ o, readOperand (.lda ⟨.direct, 0xFFFFFFFC#32⟩) = some o → ∃ v, resolve o dueFull = .ok v :=
  ⟨by decide, by decide, fun _ h => by cases h; exact ⟨_, rfl⟩⟩

/-- Enabled and not due: interrupts disabled at an expiry. -/
theorem witness_TimerStepLeavesTheRestAlone :
    (timed 1#32 3#32 44099 false).interruptDue = false ∧ State.reset.tEn = false := by decide

/-- Runs of one step from the last prescaler value, from a countdown of 1 and from one of 0. -/
theorem witness_FirstExpiryIsAtTheCountedStep :
    (∃ f : Nat → State, (∀ k, k < 1 → step (f k) = .next (f (k + 1))) ∧ f 0 = timed 1#32 3#32 44099 false) ∧
      (timed 1#32 3#32 44099 false).tEn = true ∧ (timed 1#32 3#32 44099 false).tCount ≠ 0#32 ∧
      1 + (timed 1#32 3#32 44099 false).tPre.val = 44100 * (timed 1#32 3#32 44099 false).tCount.toNat ∧
    (∃ f : Nat → State, (∀ k, k < 1 → step (f k) = .next (f (k + 1))) ∧ f 0 = timed 0#32 3#32 44099 false) ∧
      (timed 0#32 3#32 44099 false).tEn = true ∧ (timed 0#32 3#32 44099 false).tCount = 0#32 := by
  have run : ∀ {s t : State}, step s = .next t →
      ∃ f : Nat → State, (∀ k, k < 1 → step (f k) = .next (f (k + 1))) ∧ f 0 = s := fun {s t} h =>
    ⟨fun k => if k = 0 then s else t, fun k hk => by rw [Nat.lt_one_iff.1 hk]; exact h, rfl⟩
  exact ⟨run rfl, by decide, by decide, by decide, run rfl, by decide, by decide⟩

/-- One instruction for each condition of `completesIn`, at the bounds of the stack and of memory. -/
theorem witness_EveryInstructionCompletes :
    State.reset.interruptDue = false ∧
    completesIn (.sta ⟨.direct, 0xFFFFFFFC#32⟩) State.reset ∧
    completesIn (.inc ⟨.register, 0x35#32⟩) State.reset ∧
    completesIn (.dec ⟨.reserved 0x20#8, 0xFFFFFFFC#32⟩) State.reset ∧
    completesIn (.div .a ⟨.immediate, 1#32⟩) State.reset ∧
    (State.reset.setSp 0x2004#32).interruptDue = false ∧
    completesIn (.push .a) (State.reset.setSp 0x2004#32) ∧
    completesIn (.jsr 0#32) (State.reset.setSp 0x2004#32) ∧
    (State.reset.setSp 0x9EFFF#32).interruptDue = false ∧
    completesIn (.pop .a) (State.reset.setSp 0x9EFFF#32) ∧
    completesIn .rts (State.reset.setSp 0x9EFFF#32) ∧
    completesIn .rti (State.reset.setSp 0x9EFFF#32) ∧
    completesIn (.lda ⟨.direct, 0xFFFFFFFC#32⟩) State.reset ∧
    completesIn .halt State.reset :=
  ⟨by decide, ⟨_, rfl, by decide⟩, .inl rfl, .inr ⟨_, rfl, by decide⟩, ⟨_, rfl, by decide⟩,
    by decide, ⟨by decide, by decide⟩, ⟨by decide, by decide⟩, by decide, ⟨by decide, by decide⟩,
    ⟨by decide, by decide⟩, ⟨by decide, by decide⟩, ⟨_, resolve_top⟩, trivial⟩

theorem witness_LoadWritesItsRegister :
    resolve ⟨.reserved 0x05#8, 0x5000#32⟩ State.reset = .ok 0#32 ∧ startBody State.reset = .ok State.reset :=
  ⟨rfl, startBody_reset⟩

theorem witness_DedicatedLoadsWriteTheirRegisterAtoF :
    resolve ⟨.direct, 0xFFFFFFFC#32⟩ State.reset = .ok 0#32 ∧ startBody State.reset = .ok State.reset :=
  ⟨resolve_top, startBody_reset⟩

theorem witness_DedicatedLoadsWriteTheirRegisterGtoT :
    resolve ⟨.immediate, 0xA9#32⟩ State.reset = .ok 0xA9#32 ∧ startBody State.reset = .ok State.reset :=
  ⟨rfl, startBody_reset⟩

theorem witness_StoreWritesItsTarget :
    startBody State.reset = .ok State.reset ∧ storeTarget ⟨.register, 1#32⟩ State.reset = .ok 1#32 ∧
      State.reset.backs 1#32 4 = true :=
  ⟨startBody_reset, rfl, by decide⟩

theorem witness_DedicatedStoresWriteTheirTargetAtoF :
    startBody State.reset = .ok State.reset ∧ storeTarget ⟨.direct, 0xFFFFFFFC#32⟩ State.reset = .ok 0xFFFFFFFC#32 ∧
      State.reset.backs 0xFFFFFFFC#32 4 = true :=
  ⟨startBody_reset, rfl, by decide⟩

theorem witness_DedicatedStoresWriteTheirTargetGtoT :
    startBody State.reset = .ok State.reset ∧
      storeTarget ⟨.regIndirect, 0xFFFFFFF1#32⟩ (State.reset.setReg .x 0x5000#32) = .ok 0x4FF0#32 ∧
      startBody (State.reset.setReg .x 0x5000#32) = .ok (State.reset.setReg .x 0x5000#32) ∧
      (State.reset.setReg .x 0x5000#32).backs 0x4FF0#32 4 = true :=
  ⟨startBody_reset, rfl, startBody_of_disabled rfl, by decide⟩

theorem witness_AddSubMulWrapModulo :
    resolve ⟨.immediate, 0xFFFFFFFF#32⟩ State.reset = .ok 0xFFFFFFFF#32 ∧ startBody State.reset = .ok State.reset :=
  ⟨rfl, startBody_reset⟩

/-- A divisor of 1 for the first clause, of 0 for the second. -/
theorem witness_DivModAreUnsignedAndStopOnZero :
    resolve ⟨.immediate, 1#32⟩ State.reset = .ok 1#32 ∧ (1#32 : Word) ≠ 0#32 ∧
      resolve ⟨.direct, 0xFFFFFFFC#32⟩ State.reset = .ok 0#32 ∧ startBody State.reset = .ok State.reset :=
  ⟨rfl, by decide, resolve_top, startBody_reset⟩

theorem witness_LogicIsBitwise :
    resolve ⟨.register, 0xFFFFFFF0#32⟩ State.reset = .ok 0#32 ∧ startBody State.reset = .ok State.reset :=
  ⟨rfl, startBody_reset⟩

theorem witness_NotInvertsEveryBit : startBody State.reset = .ok State.reset := startBody_reset

theorem witness_ShiftsAreLogicalByTheWholeCount :
    resolve ⟨.immediate, 33#32⟩ State.reset = .ok 33#32 ∧ startBody State.reset = .ok State.reset :=
  ⟨rfl, startBody_reset⟩

/-- Register mode, and the last word of memory through a reserved mode. -/
theorem witness_IncDecChangeTheirTarget :
    startBody State.reset = .ok State.reset ∧ (⟨.register, 0x35#32⟩ : Operand).mode = .register ∧
      Reg.c = Reg.ofOperand 0x35#32 ∧ (⟨.reserved 0x20#8, 0xFFFFFFFC#32⟩ : Operand).mode ≠ .register ∧
      storeTarget ⟨.reserved 0x20#8, 0xFFFFFFFC#32⟩ State.reset = .ok 0xFFFFFFFC#32 ∧
      memRead 0xFFFFFFFC#32 State.reset = .ok 0#32 :=
  ⟨startBody_reset, rfl, by decide, by decide, rfl, resolve_top⟩

theorem witness_JumpLoadsItsTarget : startBody State.reset = .ok State.reset := startBody_reset

/-- Values on both sides of each of the six tests: 0, the least and the greatest signed value. -/
theorem witness_BranchesTestOneRegister :
    startBody State.reset = .ok State.reset ∧ (0#32 : Word).toInt = 0 ∧ (0x80000000#32 : Word).toInt < 0 ∧
      (0x7FFFFFFF#32 : Word).toInt > 0 :=
  ⟨startBody_reset, by decide⟩

theorem witness_PushStoresItsRegister :
    (startBody (State.reset.setSp 0x2004#32) = .ok (State.reset.setSp 0x2004#32) ∧
      0x2004 ≤ (State.reset.setSp 0x2004#32).sp.toNat ∧
      (State.reset.setSp 0x2004#32).backs ((State.reset.setSp 0x2004#32).sp - 4#32) 4 = true) ∧
    startBody (State.reset.setSp 0x2003#32) = .ok (State.reset.setSp 0x2003#32) ∧
      (State.reset.setSp 0x2003#32).sp.toNat < 0x2004 :=
  ⟨⟨startBody_of_disabled rfl, by decide, by decide⟩, startBody_of_disabled rfl, by decide⟩

/-- The stack pointers on both sides of the bound of POP, RTS and RTI. -/
theorem witness_PopLoadsItsRegister :
    (startBody (State.reset.setSp 0x9EFFF#32) = .ok (State.reset.setSp 0x9EFFF#32) ∧
      (State.reset.setSp 0x9EFFF#32).sp.toNat < 0x9F000 ∧
      memRead (State.reset.setSp 0x9EFFF#32).sp (State.reset.setSp 0x9EFFF#32) = .ok 0#32) ∧
    startBody State.reset = .ok State.reset ∧ 0x9F000 ≤ State.reset.sp.toNat :=
  ⟨⟨startBody_of_disabled rfl, by decide, memRead_eq_ok.2 ⟨by decide, by decide⟩⟩, startBody_reset, by decide⟩

theorem witness_JsrPushesTheReturnAddress :
    (startBody (State.reset.setSp 0x2004#32) = .ok (State.reset.setSp 0x2004#32) ∧
      0x2004 ≤ (State.reset.setSp 0x2004#32).sp.toNat ∧
      (State.reset.setSp 0x2004#32).backs ((State.reset.setSp 0x2004#32).sp - 4#32) 4 = true) ∧
    startBody (State.reset.setSp 0x2003#32) = .ok (State.reset.setSp 0x2003#32) ∧
      (State.reset.setSp 0x2003#32).sp.toNat < 0x2004 :=
  witness_PushStoresItsRegister

theorem witness_RtsPopsThePc :
    (startBody (State.reset.setSp 0x9EFFF#32) = .ok (State.reset.setSp 0x9EFFF#32) ∧
      (State.reset.setSp 0x9EFFF#32).sp.toNat < 0x9F000 ∧
      memRead (State.reset.setSp 0x9EFFF#32).sp (State.reset.setSp 0x9EFFF#32) = .ok 0#32) ∧
    startBody State.reset = .ok State.reset ∧ 0x9F000 ≤ State.reset.sp.toNat :=
  witness_PopLoadsItsRegister

theorem witness_JsrThenRtsComesBack :
    (State.reset.setSp 0x2004#32).tEn = false ∧ (State.reset.setSp 0x2004#32).stackInv ∧
      0x2004 ≤ (State.reset.setSp 0x2004#32).sp.toNat ∧
      (State.reset.setSp 0x2004#32).backs ((State.reset.setSp 0x2004#32).sp - 4#32) 4 = true :=
  ⟨rfl, ⟨by decide, by decide, by decide⟩, by decide, by decide⟩

theorem witness_SeiEnablesAndCliDisables : startBody State.reset = .ok State.reset := startBody_reset

theorem witness_RtiReturnsFromTheInterrupt :
    (startBody (State.reset.setSp 0x9EFFF#32) = .ok (State.reset.setSp 0x9EFFF#32) ∧
      (State.reset.setSp 0x9EFFF#32).sp.toNat < 0x9F000 ∧
      memRead (State.reset.setSp 0x9EFFF#32).sp (State.reset.setSp 0x9EFFF#32) = .ok 0#32) ∧
    startBody State.reset = .ok State.reset ∧ 0x9F000 ≤ State.reset.sp.toNat :=
  witness_PopLoadsItsRegister

theorem witness_WaitOnlyAdvances :
    resolve ⟨.immediate, 1000#32⟩ State.reset = .ok 1000#32 ∧ startBody State.reset = .ok State.reset :=
  ⟨rfl, startBody_reset⟩

theorem witness_NopOnlyAdvances : startBody State.reset = .ok State.reset := startBody_reset

theorem witness_HaltStopsWhereItIs : startBody State.reset = .ok State.reset := startBody_reset

/-- A form with a destination register and one that moves SP. -/
theorem witness_FormsThatStoreNothingKeepTheRest :
    startBody State.reset = .ok State.reset ∧
      storeAddress (.inc ⟨.register, 0x35#32⟩) State.reset = none ∧
      (∃ t, exec (.inc ⟨.register, 0x35#32⟩) State.reset = .next t) ∧
      storeAddress .rts State.reset = none ∧ ∃ t, exec .rts State.reset = .next t :=
  ⟨startBody_reset, rfl, ⟨_, rfl⟩, rfl, _, rfl⟩

/-- A store, an INC of memory, a PUSH and a JSR. -/
theorem witness_StoringFormsKeepTheRest :
    startBody State.reset = .ok State.reset ∧
      (storeAddress (.sta ⟨.register, 1#32⟩) State.reset = some (.ok 1#32) ∧
        ∃ t, exec (.sta ⟨.register, 1#32⟩) State.reset = .next t) ∧
      (storeAddress (.inc ⟨.immediate, 0xFFFFFFFC#32⟩) State.reset = some (.ok 0xFFFFFFFC#32) ∧
        ∃ t, exec (.inc ⟨.immediate, 0xFFFFFFFC#32⟩) State.reset = .next t) ∧
      (storeAddress (.push .w) State.reset = some (.ok 0x9EFFC#32) ∧ ∃ t, exec (.push .w) State.reset = .next t) ∧
      storeAddress (.jsr 0#32) State.reset = some (.ok 0x9EFFC#32) ∧ ∃ t, exec (.jsr 0#32) State.reset = .next t :=
  ⟨startBody_reset, ⟨rfl, _, rfl⟩, ⟨rfl, _, rfl⟩, ⟨rfl, _, rfl⟩, rfl, _, rfl⟩

theorem witness_StepKeepsMemoryAndStackInvariant : State.reset.Inv ∧ ∃ t, step State.reset = .next t :=
  ⟨⟨by decide, by decide, by decide, by decide⟩, _, rfl⟩

theorem witness_LaunchStatesMeetTheInvariant : Memory.wf [(0, 0x01#8), (0xFFFFFFFF, 0xFF#8)] = true := by decide

theorem witness_TimerConfigurationNeverChanges : ∃ t, step atNop = .next t := ⟨_, rfl⟩

/-- A change of each latch by its instruction. -/
theorem witness_LatchesChangeOnlyByTheirOwnEvents :
    (∃ t, exec .sei State.reset = .next t ∧ t.ie ≠ State.reset.ie) ∧
      (∃ t, exec .rti ((State.reset.setSp 0x9EFFC#32).setInirq true) = .next t ∧
        t.inirq ≠ ((State.reset.setSp 0x9EFFC#32).setInirq true).inirq) ∧
      ∃ t, execReservedOpcode State.reset = .next t :=
  ⟨⟨_, rfl, by decide⟩, ⟨_, rfl, by decide⟩, _, rfl⟩

/-- The five causes, and the entry that overflows. -/
theorem witness_ProcessorStopsExactlyByTheTable :
    (State.reset.run = .running ∧ (∃ raw, fetch State.reset = .ok raw) ∧
      ∃ t, step State.reset = .next t ∧ t.run = .stopped .reservedOpcode) ∧
    startBody State.reset = .ok State.reset ∧
    bodyStops (some .halt) State.reset State.reset .halt ∧
    bodyStops none State.reset State.reset .reservedOpcode ∧
    bodyStops (some (.div .a ⟨.reserved 0x05#8, 7#32⟩)) State.reset State.reset .divideByZero ∧
    bodyStops (some (.push .a)) (State.reset.setSp 0x2003#32) (State.reset.setSp 0x2003#32) .stackOverflow ∧
    bodyStops (some .rti) State.reset State.reset .stackUnderflow ∧
    dueFull.run = .running ∧ (∃ raw, fetch dueFull = .ok raw) ∧ dueFull.interruptDue = true ∧
      dueFull.sp.toNat ≤ 0x2000 ∧
      ∀ o, readOperand (.lda ⟨.direct, 0xFFFFFFFC#32⟩) = some o → ∃ v, resolve o dueFull = .ok v :=
  ⟨⟨rfl, ⟨_, rfl⟩, _, rfl, rfl⟩, startBody_reset, rfl, rfl, ⟨_, _, .inl rfl, rfl⟩, ⟨.inl ⟨_, rfl⟩, by decide⟩,
    ⟨.inr (.inr rfl), by decide⟩, rfl, ⟨_, rfl⟩, by decide, by decide, fun _ h => by cases h; exact ⟨_, rfl⟩⟩

/-- A read past the top, a read whose last byte alone is not installed, and a reserved opcode whose
interrupt entry finds its stack word not installed. -/
theorem witness_OnlyAccessesAreRefused :
    exec (.lda ⟨.direct, 0xFFFFFFFD#32⟩) State.reset = .refused (.pastTopOfMemory 0xFFFFFFFD#32) ∧
    exec (.lda ⟨.direct, 0x1FFD#32⟩) { State.reset with installed := [⟨0, 0x2000⟩] } =
      .refused (.notInstalled 0x1FFD#32) ∧
    ({ State.reset with installed := [⟨0, 0x2000⟩] } : State).isInstalled (0x1FFD + 3) = false ∧
    execReservedOpcode { dueLow with installed := [⟨0, 0x1000⟩] } = .refused (.notInstalled 0x1FFD#32) :=
  ⟨rfl, rfl, by decide, rfl⟩

end Sys2Proof.Tests
end

section
/-! PROOFS. Encoding, R81 to R94: which fields an opcode's row reads, what the encoder writes for the
instruction a row builds, and the statements about decoding. -/

namespace Sys2Proof

/-! ### Fields -/

/-- The register field of an instruction word, read and written again, keeps its low nibble (R22, R94). -/
@[simp] theorem Reg.toField_ofField (b : Byte) : (Reg.ofField b).toField = b &&& 0x0F#8 := by
  rw [Reg.toField, Reg.ofField, Reg.index_ofIndex]
  apply BitVec.eq_of_toNat_eq
  have mask : b.toNat &&& 15 = b.toNat % 16 := Nat.and_two_pow_sub_one_eq_mod b.toNat 4
  simp only [BitVec.toNat_setWidth, BitVec.toNat_and, BitVec.toNat_ofNat, Nat.reducePow, Nat.reduceMod, mask]
  omega

@[simp] theorem Reg.ofField_toField (r : Reg) : Reg.ofField r.toField = r := by cases r <;> rfl

/-- The register of a field is that of its low nibble (R83). -/
theorem Reg.ofField_eq_of_low_nibble {b b' : Byte} (h : b &&& 0x0F#8 = b' &&& 0x0F#8) :
    Reg.ofField b = Reg.ofField b' := by
  rw [← Reg.ofField_toField (Reg.ofField b), Reg.toField_ofField, h, ← Reg.toField_ofField,
    Reg.ofField_toField]

@[simp] theorem Mode.toByte_ofByte (b : Byte) : (Mode.ofByte b).toByte = b := by
  unfold Mode.ofByte
  split
  case h_6 => rfl
  all_goals next h => exact (BitVec.eq_of_toNat_eq h).symm

@[simp] theorem Mode.wellFormed_ofByte (b : Byte) : (Mode.ofByte b).wellFormed = true := by
  unfold Mode.ofByte
  split
  case h_6 _ h0 h1 h2 h3 h4 =>
    simp only [imp_false] at h0 h1 h2 h3 h4
    have reservedCode : 5 ≤ b.toNat := by omega
    exact decide_eq_true reservedCode
  all_goals rfl

@[simp] theorem rawOf_operand32 (opcode reg mode : Byte) (v : Word) :
    (rawOf opcode reg mode v).operand32 = v := wordOfBytes_byteOf v

/-! ### The fields a row reads (R84) -/

/-- Classes `RM`, `R` and `RT` read the register field. -/
def Row.readsReg : Row → Bool
  | .rm _ | .r _ | .rt _ => true
  | .m _ | .t _ | .n _ => false

/-- Classes `RM` and `M` read the mode byte. -/
def Row.readsMode : Row → Bool
  | .rm _ | .m _ => true
  | .r _ | .rt _ | .t _ | .n _ => false

/-- Classes `RM`, `M`, `RT` and `T` read operand32. -/
def Row.readsOperand32 : Row → Bool
  | .rm _ | .m _ | .rt _ | .t _ => true
  | .r _ | .n _ => false

/-- A row builds the same instruction from words that agree on the fields it reads. -/
theorem Row.apply_congr (row : Row) {raw raw' : RawInstr}
    (hreg : row.readsReg = true → raw.reg &&& 0x0F#8 = raw'.reg &&& 0x0F#8)
    (hmode : row.readsMode = true → raw.mode = raw'.mode)
    (hop : row.readsOperand32 = true → raw.operand32 = raw'.operand32) :
    row.apply raw = row.apply raw' := by
  cases row with
  | rm build => simp only [Row.apply, Reg.ofField_eq_of_low_nibble (hreg rfl), hmode rfl, hop rfl]
  | m build => simp only [Row.apply, hmode rfl, hop rfl]
  | r build => simp only [Row.apply, Reg.ofField_eq_of_low_nibble (hreg rfl)]
  | rt build => simp only [Row.apply, Reg.ofField_eq_of_low_nibble (hreg rfl), hop rfl]
  | t build => simp only [Row.apply, hop rfl]
  | n i => rfl

/-! ### The opcode map, row by row (R87) -/

/-- What the encoder writes for the instruction a row builds: the row's opcode, the fields the row
reads, and zero in the others (R94). -/
theorem encodeRaw_apply {opcode : Byte} {row : Row} (h : opcodeRow opcode = some row) (raw : RawInstr) :
    encodeRaw (row.apply raw) =
      rawOf opcode (if row.readsReg then (Reg.ofField raw.reg).toField else 0x00#8)
        (if row.readsMode then (Mode.ofByte raw.mode).toByte else 0x00#8)
        (if row.readsOperand32 then raw.operand32 else 0x00000000#32) := by
  unfold opcodeRow at h
  split at h <;> cases h <;> rfl

/-- An instruction of the map is well formed when the mode it reads is (R91). -/
theorem wellFormed_apply {opcode : Byte} {row : Row} (h : opcodeRow opcode = some row) (raw : RawInstr) :
    (row.apply raw).wellFormed = if row.readsMode then (Mode.ofByte raw.mode).wellFormed else true := by
  unfold opcodeRow at h
  split at h <;> cases h <;> rfl

/-- A decoded word is an instruction of the row of its opcode. -/
theorem decodeRaw_eq_some {raw : RawInstr} {i : Instr} :
    decodeRaw raw = some i ↔ ∃ row, opcodeRow raw.opcode = some row ∧ row.apply raw = i :=
  Option.map_eq_some_iff

@[simp] theorem decodeRaw_eq_none {raw : RawInstr} : decodeRaw raw = none ↔ opcodeRow raw.opcode = none :=
  Option.map_eq_none_iff

end Sys2Proof

namespace Sys2Proof.Claims

open Sys2Proof.Machine

/-- The lists of opcodes that use a field hold the opcodes whose row reads it (R84, R87). -/
theorem uses_iff_reads {opcode : Byte} {row : Row} (h : opcodeRow opcode = some row) :
    (opcode ∈ usesReg ↔ row.readsReg = true) ∧ (opcode ∈ usesMode ↔ row.readsMode = true) ∧
      (opcode ∈ usesOperand32 ↔ row.readsOperand32 = true) := by
  unfold opcodeRow at h
  split at h <;> cases h <;> decide

/-- The opcodes without a row are the reserved ranges (R89): one check of each of the 256 bytes. -/
theorem opcodeRow_eq_none_iff (opcode : Byte) : opcodeRow opcode = none ↔ isReservedOpcode opcode := by
  unfold isReservedOpcode
  revert opcode
  decide

/-- The step of a word the decoder turns down. -/
theorem step_of_decodeRaw_none {s : State} {raw : RawInstr} (hrun : s.run = .running)
    (hfetch : fetch s = .ok raw) (hdec : decodeRaw raw = none) : step s = execReservedOpcode s := by
  simp only [step, hrun, hfetch, hdec]

/-- A reserved opcode stops in the state the timer step leaves (R242). -/
theorem execReservedOpcode_of_ok {s u : State} (h : startBody s = .ok u) :
    execReservedOpcode s = .next (u.stop .reservedOpcode) :=
  runBody_of_ok h

/-- Settles O2: the encoder writes the fields the row reads, and each field read and written again is
what R94 says of it. -/
theorem decodedBytesEncodeCanonically : Obligations.DecodedBytesEncodeCanonically := by
  intro raw i h
  obtain ⟨row, hrow, rfl⟩ := decodeRaw_eq_some.1 h
  obtain ⟨hreg, hmode, hop⟩ := uses_iff_reads hrow
  have wf : (row.apply raw).wellFormed = true := by simp [wellFormed_apply hrow]
  rw [encodeRaw_apply hrow, Reg.toField_ofField, Mode.toByte_ofByte, rawOf_operand32]
  simp [rawOf, wf, hreg, hmode, hop]

/-- Settles O3: equal opcodes select one row, which reads no ignored field. -/
theorem ignoredFieldsNeverMatter : Obligations.IgnoredFieldsNeverMatter := by
  intro raw raw' hopcode hreg hmode hop
  unfold decodeRaw
  rw [← hopcode]
  cases hrow : opcodeRow raw.opcode with
  | none => rfl
  | some row =>
    obtain ⟨hr, hm, ho⟩ := uses_iff_reads hrow
    exact congrArg some (row.apply_congr (hreg ∘ hr.2) (hmode ∘ hm.2) (hop ∘ ho.2))

/-- Settles O4: the map has no row exactly for the reserved opcodes, and the step of such a word is the
timer step and the stop. -/
theorem reservedOpcodesStopTheProcessor : Obligations.ReservedOpcodesStopTheProcessor := by
  have rejects : ∀ raw : RawInstr, decodeRaw raw = none ↔ isReservedOpcode raw.opcode := fun raw =>
    decodeRaw_eq_none.trans (opcodeRow_eq_none_iff raw.opcode)
  refine ⟨rejects, fun s u raw hrun hfetch hres hbody => ?_⟩
  calc step s
      _ = execReservedOpcode s := step_of_decodeRaw_none hrun hfetch ((rejects raw).2 hres)
      _ = .next { u with run := .stopped .reservedOpcode } := execReservedOpcode_of_ok hbody

end Sys2Proof.Claims
end

section
/-! PROOFS. Execution and operands, R110 to R124: what the mode byte selects, the register-indirect
address as a number, and the interrupt entry inside a step. -/

namespace Sys2Proof

/-- `mask4` of an operand field is its low nibble (R22, R85). -/
theorem Reg.ofOperand_eq_ofIndex (v : Word) : Reg.ofOperand v = Reg.ofIndex (v.extractLsb' 0 4) :=
  congrArg Reg.ofIndex (BitVec.setWidth_eq_extractLsb' (by decide))

/-- The same nibble, as the field modulo 16. -/
theorem Reg.ofOperand_eq_ofIndex_mod (v : Word) :
    Reg.ofOperand v = Reg.ofIndex (BitVec.ofNat 4 (v.toNat % 16)) := by
  have nibble : v.setWidth 4 = BitVec.ofNat 4 (v.toNat % 16) := by
    apply BitVec.eq_of_toNat_eq
    simp only [BitVec.toNat_setWidth, BitVec.toNat_ofNat, Nat.reducePow, Nat.mod_mod]
  exact congrArg Reg.ofIndex nibble

/-- Every code from 0x05 on is a reserved mode (R85, R90). -/
theorem Mode.ofByte_of_five_le {b : Byte} (h : 5 ≤ b.toNat) : Mode.ofByte b = .reserved b := by
  unfold Mode.ofByte
  split
  case h_6 => rfl
  all_goals omega

end Sys2Proof

namespace Sys2Proof.Machine

/-! ### Operands (R114, R116, R118) -/

/-- `ea_regind` in the words of R118: the base register of the low nibble plus the field without it. -/
theorem eaRegInd_eq (v : Word) (s : State) :
    eaRegInd v s = s.getReg (Reg.ofIndex (v.extractLsb' 0 4)) + (v &&& 0xFFFFFFF0#32) := by
  rw [eaRegInd, Reg.ofOperand_eq_ofIndex, regIndOffset]

/-- The offset is the field rounded down to a multiple of 16. -/
theorem regIndOffset_toNat (v : Word) : (regIndOffset v).toNat = v.toNat - v.toNat % 16 := by
  have shifted : regIndOffset v = v >>> 4 <<< 4 := by
    rw [BitVec.shiftLeft_ushiftRight]
    rfl
  have inRange : v.toNat / 16 * 16 < 2 ^ 32 := by omega
  rw [shifted, BitVec.toNat_shiftLeft, BitVec.toNat_ushiftRight, Nat.shiftRight_eq_div_pow,
    Nat.shiftLeft_eq, Nat.mod_eq_of_lt inRange]
  omega

/-- A reserved mode reads 0 without an access (R115). -/
theorem resolve_of_reserved {b : Byte} (h : 5 ≤ b.toNat) (v : Word) (s : State) :
    resolve ⟨Mode.ofByte b, v⟩ s = .ok 0#32 := by
  rw [Mode.ofByte_of_five_le h, resolve]

/-- A reserved mode stores at the field itself (R116). -/
theorem storeTarget_of_reserved {b : Byte} (h : 5 ≤ b.toNat) (v : Word) (s : State) :
    storeTarget ⟨Mode.ofByte b, v⟩ s = .ok v := by
  rw [Mode.ofByte_of_five_le h, storeTarget]

/-! ### The interrupt entry inside a step (R121, R250, R254) -/

/-- An entry with room on the stack and its two accesses installed. The pushed word lies above the
vector, so the vector read after the push is the one of the memory before it. -/
theorem interruptEntry_of_backs {s : State} (hsp : 0x2000 < s.sp.toNat)
    (hstack : s.backs (s.sp - 4#32) 4 = true) (hvector : s.backs 0#32 4 = true) :
    interruptEntry s =
      .ok { s with
            sp := s.sp - 4#32
            mem := s.mem.writeWord (s.sp - 4#32).toNat s.pc
            pc := s.mem.readWord 0
            inirq := true } := by
  have above : 0 + 4 ≤ (s.sp - 4#32).toNat := by bv_omega
  have vectorKept : (s.mem.writeWord (s.sp - 4#32).toNat s.pc).readWord 0 = s.mem.readWord 0 :=
    Memory.readWord_writeWord_disjoint _ _ _ _ (.inl above)
  refine interruptEntry_eq_ok.2 ⟨_, pushIrq_eq_ok.2 ⟨hsp, hstack, rfl⟩, hvector, ?_⟩
  simp only [State.setPc, State.setInirq, vectorKept]

/-- A timer step that enters: the entry runs in the state of the expiry, and then the reload. -/
theorem timerStep_of_entry {s e : State} (hdue : s.interruptDue = true)
    (hentry : interruptEntry s.atExpiry = .ok e) : timerStep s = .ok (e.timerReload, true) := by
  rw [timerStep_of_due hdue, hentry]

/-- A step that ends in its timer step does not run its body (R110). -/
theorem runBody_of_ended {s t : State} (body : State → Except Abort State)
    (h : startBody s = .error (.ended t)) : runBody s body = .next t :=
  runBody_eq_next.2 (.inl h)

/-- The step of an instruction whose operand can be read, when the timer step ends it (R110). -/
theorem exec_of_ended {i : Instr} {s t : State}
    (hread : ∀ o, readOperand i = some o → ∃ v, resolve o s = .ok v)
    (h : startBody s = .error (.ended t)) : exec i s = .next t := by
  rw [exec_eq]
  cases ho : readOperand i with
  | none => exact runBody_of_ended _ h
  | some o =>
    obtain ⟨v, hv⟩ := hread o ho
    exact runRead_eq_next.2 ⟨v, hv, runBody_of_ended _ h⟩

end Sys2Proof.Machine

namespace Sys2Proof.Claims

open Sys2Proof.Machine

/-- Settles O17: the five named codes one by one, and the reserved ones together. -/
theorem readOperandByModeByte : Obligations.ReadOperandByModeByte := by
  intro b v s
  rw [← eaRegInd_eq, ← Reg.ofOperand_eq_ofIndex]
  refine ⟨?immediate, ?register, ?regIndirect, ?memIndirect, ?direct, ?reserved⟩
  case reserved => exact fun h => resolve_of_reserved h v s
  all_goals
    rintro rfl
    rfl

/-- Settles O18: the field itself but for register indirect and memory indirect. -/
theorem storeTargetByModeByte : Obligations.StoreTargetByModeByte := by
  intro b v s
  rw [← eaRegInd_eq]
  refine ⟨?field, ?regIndirect, ?memIndirect⟩
  case field =>
    rintro (rfl | rfl | rfl | h)
    case inr.inr.inr => exact storeTarget_of_reserved h v s
    all_goals rfl
  all_goals
    rintro rfl
    rfl

/-- Settles O19: the sum of R118 in numbers, from the number of its offset. -/
theorem registerIndirectAddressIsModular : Obligations.RegisterIndirectAddressIsModular := by
  intro v s
  rw [eaRegInd, BitVec.toNat_add, regIndOffset_toNat, Reg.ofOperand_eq_ofIndex_mod]

/-- A due interrupt whose accesses are installed is entered, and leaves `afterEntry`. -/
theorem timerStep_eq_afterEntry {s : State} (hdue : s.interruptDue = true) (hsp : 0x2000 < s.sp.toNat)
    (hstack : s.backs (s.sp - 4#32) 4 = true) (hvector : s.backs 0#32 4 = true) :
    timerStep s = .ok (afterEntry s, true) := by
  obtain ⟨expires, -, -⟩ := (State.interruptDue_iff s).1 hdue
  obtain ⟨enabled, -, -⟩ := (State.timerExpires_iff s).1 expires
  have entry := interruptEntry_of_backs (s := s.atExpiry) hsp hstack hvector
  rw [timerStep_of_entry hdue entry]
  simp only [State.timerReload, State.atExpiry, enabled, if_true, afterEntry]

/-- Settles O23: the timer step is the entry, and each reading of IRQ_BODY says what follows it. -/
theorem entryComesBeforeTheBodyOfAnyInstruction :
    Obligations.EntryComesBeforeTheBodyOfAnyInstruction := by
  intro s hdue hsp hstack hvector
  have timer : timerStep s = .ok (afterEntry s, true) := timerStep_eq_afterEntry hdue hsp hstack hvector
  have onContinues : startBodyWith .continues s = .ok (afterEntry s) := by rw [startBodyWith, timer]
  have onAbandons : startBodyWith .abandons s = .error (.ended (afterEntry s)) := by
    rw [startBodyWith, timer]
  refine ⟨onContinues, onAbandons, ?_⟩
  cases hirq : Config.irqBody with
  | continues =>
    have body : startBody s = .ok (afterEntry s) := by rw [startBody, hirq, onContinues]
    exact .inl ⟨rfl, body, execReservedOpcode_of_ok body⟩
  | abandons =>
    have ended : startBody s = .error (.ended (afterEntry s)) := by rw [startBody, hirq, onAbandons]
    exact .inr ⟨rfl, runBody_of_ended _ ended, fun i hread => exec_of_ended hread ended⟩

end Sys2Proof.Claims
end

section
/-! PROOFS. Data movement, R140 to R156: what the row of an opcode says of its decoding, the step of an
instruction with a read-style operand, and the seventeen loads. -/

namespace Sys2Proof.Machine

/-- An instruction with a read-style operand runs its body on the value resolved before the timer step, in
the state the timer step leaves (R110). -/
theorem exec_of_resolve {i : Instr} {o : Operand} {s u : State} {v : Word} (ho : readOperand i = some o)
    (hv : resolve o s = .ok v) (hu : startBody s = .ok u) : exec i s = finish (bodyOf i v u) := by
  rw [exec_eq, ho]
  exact runRead_of_ok hv hu

/-- The step of an instruction whose body is that of the loads (R140). -/
theorem exec_of_loadBody {i : Instr} {o : Operand} {r : Reg} {s u : State} {v : Word}
    (ho : readOperand i = some o) (hbody : bodyOf i v = loadBody r v)
    (hv : resolve o s = .ok v) (hu : startBody s = .ok u) :
    exec i s = .next { u with regs := u.regs.set r v, pc := u.pc + 8#32 } := by
  calc exec i s
      _ = finish (bodyOf i v u) := exec_of_resolve ho hv hu
      _ = .next (u.setReg r v).advance := by rw [hbody, loadBody_eq, finish]

end Sys2Proof.Machine

namespace Sys2Proof.Claims

open Sys2Proof.Machine

/-! ### Decoding, from the row of the opcode (R84, R87) -/

/-- An opcode with a row of class `RM` decodes to that class. -/
theorem decodesRM_of_opcodeRow {opcode : Byte} {build : Reg → Operand → Instr}
    (h : opcodeRow opcode = some (.rm build)) : decodesRM opcode build := by
  rintro raw rfl
  exact decodeRaw_eq_some.2 ⟨_, h, rfl⟩

/-- An opcode with a row of class `M` decodes to that class. -/
theorem decodesM_of_opcodeRow {opcode : Byte} {build : Operand → Instr}
    (h : opcodeRow opcode = some (.m build)) : decodesM opcode build := by
  rintro raw rfl
  exact decodeRaw_eq_some.2 ⟨_, h, rfl⟩

/-! ### The dedicated loads (R141 to R156) -/

/-- An entry of the tables of dedicated loads agrees with the model: the opcode map has its instruction
under its opcode, which reads its operand and has the body of LOAD with the register of the entry. -/
structure IsDedicatedLoad (p : Byte × (Operand → Instr) × Reg) : Prop where
  row : opcodeRow p.1 = some (.m p.2.1)
  operand : ∀ o, readOperand (p.2.1 o) = some o
  body : ∀ o v, bodyOf (p.2.1 o) v = loadBody p.2.2 v

/-- LDA to LDF, entry by entry. -/
theorem isDedicatedLoad_of_mem_loadsA {p : Byte × (Operand → Instr) × Reg} (hp : p ∈ dedicatedLoadsA) :
    IsDedicatedLoad p := by
  simp only [dedicatedLoadsA, List.mem_cons, List.not_mem_nil, or_false] at hp
  rcases hp with rfl | rfl | rfl | rfl | rfl | rfl | rfl | rfl | rfl
  all_goals exact ⟨rfl, fun _ => rfl, fun _ _ => rfl⟩

/-- LDG to LDT, entry by entry. -/
theorem isDedicatedLoad_of_mem_loadsB {p : Byte × (Operand → Instr) × Reg} (hp : p ∈ dedicatedLoadsB) :
    IsDedicatedLoad p := by
  simp only [dedicatedLoadsB, List.mem_cons, List.not_mem_nil, or_false] at hp
  rcases hp with rfl | rfl | rfl | rfl | rfl | rfl | rfl
  all_goals exact ⟨rfl, fun _ => rfl, fun _ _ => rfl⟩

/-- What a dedicated load decodes from and what its step does: its own register and PC, nothing else. -/
theorem IsDedicatedLoad.decodes_and_exec {p : Byte × (Operand → Instr) × Reg} (hp : IsDedicatedLoad p) :
    decodesM p.1 p.2.1 ∧
      ∀ (o : Operand) (s u : State) (v : Word), resolve o s = .ok v → startBody s = .ok u →
        exec (p.2.1 o) s = .next { u with regs := u.regs.set p.2.2 v, pc := u.pc + 8#32 } :=
  ⟨decodesM_of_opcodeRow hp.row, fun o _ _ v => exec_of_loadBody (hp.operand o) (hp.body o v)⟩

/-- Settles O28: LOAD has a row of class `RM` and the body of the loads. -/
theorem loadWritesItsRegister : Obligations.LoadWritesItsRegister :=
  ⟨decodesRM_of_opcodeRow rfl, fun _ _ _ _ _ => exec_of_loadBody rfl rfl⟩

/-- Settles O29: each entry of the table is a dedicated load of the model. -/
theorem dedicatedLoadsWriteTheirRegisterAtoF : Obligations.DedicatedLoadsWriteTheirRegisterAtoF :=
  fun _ hp => (isDedicatedLoad_of_mem_loadsA hp).decodes_and_exec

/-- Settles O30: each entry of the table is a dedicated load of the model. -/
theorem dedicatedLoadsWriteTheirRegisterGtoT : Obligations.DedicatedLoadsWriteTheirRegisterGtoT :=
  fun _ hp => (isDedicatedLoad_of_mem_loadsB hp).decodes_and_exec

end Sys2Proof.Claims
end

section
/-! PROOFS. Stores, R160 to R176: the step of an instruction without a read-style operand, and the
seventeen stores. -/

namespace Sys2Proof.Machine

/-- An instruction that resolves no read-style operand runs its body in the state the timer step leaves
(R110). -/
theorem exec_of_readOperand_none {i : Instr} {s u : State} (ho : readOperand i = none)
    (hu : startBody s = .ok u) : exec i s = finish (bodyOf i 0#32 u) := by
  rw [exec_eq, ho]
  exact runBody_of_ok hu

/-- The step of an instruction whose body is that of the stores: the target resolves in the state the body
runs in, and the word is written there (R116, R160). -/
theorem exec_of_storeBody {i : Instr} {o : Operand} {r : Reg} {s u : State} {a : Word}
    (ho : readOperand i = none) (hbody : bodyOf i 0#32 = storeBody r o) (hu : startBody s = .ok u)
    (ha : storeTarget o u = .ok a) (hbacks : u.backs a 4 = true) :
    exec i s = .next { u with mem := u.mem.writeWord a.toNat (u.getReg r), pc := u.pc + 8#32 } := by
  have completes : storeBody r o u = .ok (u.setMem (u.mem.writeWord a.toNat (u.getReg r))).advance :=
    storeBody_eq_ok.2 ⟨a, ha, hbacks, rfl⟩
  calc exec i s
      _ = finish (bodyOf i 0#32 u) := exec_of_readOperand_none ho hu
      _ = .next (u.setMem (u.mem.writeWord a.toNat (u.getReg r))).advance := by
        rw [hbody, completes, finish_ok]

end Sys2Proof.Machine

namespace Sys2Proof.Claims

open Sys2Proof.Machine

/-! ### The dedicated stores (R161 to R176) -/

/-- An entry of the tables of dedicated stores agrees with the model: the opcode map has its instruction
under its opcode, which reads no operand before its body and has the body of STORE with the register of
the entry. -/
structure IsDedicatedStore (p : Byte × (Operand → Instr) × Reg) : Prop where
  row : opcodeRow p.1 = some (.m p.2.1)
  noRead : ∀ o, readOperand (p.2.1 o) = none
  body : ∀ o, bodyOf (p.2.1 o) 0#32 = storeBody p.2.2 o

/-- STA to STF, entry by entry. -/
theorem isDedicatedStore_of_mem_storesA {p : Byte × (Operand → Instr) × Reg}
    (hp : p ∈ dedicatedStoresA) : IsDedicatedStore p := by
  simp only [dedicatedStoresA, List.mem_cons, List.not_mem_nil, or_false] at hp
  rcases hp with rfl | rfl | rfl | rfl | rfl | rfl | rfl | rfl | rfl
  all_goals exact ⟨rfl, fun _ => rfl, fun _ => rfl⟩

/-- STG to STT, entry by entry. -/
theorem isDedicatedStore_of_mem_storesB {p : Byte × (Operand → Instr) × Reg}
    (hp : p ∈ dedicatedStoresB) : IsDedicatedStore p := by
  simp only [dedicatedStoresB, List.mem_cons, List.not_mem_nil, or_false] at hp
  rcases hp with rfl | rfl | rfl | rfl | rfl | rfl | rfl
  all_goals exact ⟨rfl, fun _ => rfl, fun _ => rfl⟩

/-- What a dedicated store decodes from and what its step does: its own register to the word at its
target, and PC, nothing else. -/
theorem IsDedicatedStore.decodes_and_exec {p : Byte × (Operand → Instr) × Reg}
    (hp : IsDedicatedStore p) :
    decodesM p.1 p.2.1 ∧
      ∀ (o : Operand) (s u : State) (a : Word), startBody s = .ok u → storeTarget o u = .ok a →
        u.backs a 4 = true →
        exec (p.2.1 o) s =
          .next { u with mem := u.mem.writeWord a.toNat (u.getReg p.2.2), pc := u.pc + 8#32 } :=
  ⟨decodesM_of_opcodeRow hp.row, fun o _ _ _ => exec_of_storeBody (hp.noRead o) (hp.body o)⟩

/-- Settles O31: STORE has a row of class `RM` and the body of the stores. -/
theorem storeWritesItsTarget : Obligations.StoreWritesItsTarget :=
  ⟨decodesRM_of_opcodeRow rfl, fun _ _ _ _ _ => exec_of_storeBody rfl rfl⟩

/-- Settles O32: each entry of the table is a dedicated store of the model. -/
theorem dedicatedStoresWriteTheirTargetAtoF : Obligations.DedicatedStoresWriteTheirTargetAtoF :=
  fun _ hp => (isDedicatedStore_of_mem_storesA hp).decodes_and_exec

/-- Settles O33: each entry of the table is a dedicated store of the model. -/
theorem dedicatedStoresWriteTheirTargetGtoT : Obligations.DedicatedStoresWriteTheirTargetGtoT :=
  fun _ hp => (isDedicatedStore_of_mem_storesB hp).decodes_and_exec

end Sys2Proof.Claims
end

section
/-! PROOFS. Arithmetic, R180 to R184: the step of an instruction that combines its register with its
operand, the two outcomes of a division, and the five operations of the tables. -/

namespace Sys2Proof.Machine

/-- The step of an instruction that combines its register with its operand: the register holds the result
in the state the body finds (R180). -/
theorem exec_of_combineBody {f : Word → Word → Word} {i : Instr} {o : Operand} {r : Reg} {s u : State}
    {v : Word} (ho : readOperand i = some o) (hbody : bodyOf i v = combineBody f r v)
    (hv : resolve o s = .ok v) (hu : startBody s = .ok u) :
    exec i s = .next { u with regs := u.regs.set r (f (u.getReg r) v), pc := u.pc + 8#32 } := by
  calc exec i s
      _ = finish (bodyOf i v u) := exec_of_resolve ho hv hu
      _ = .next (u.setReg r (f (u.getReg r) v)).advance := by rw [hbody, combineBody_eq, finish_ok]

/-- A divisor that is not 0 makes a division one more instruction that combines (R183, R184). -/
theorem divideBody_eq_combineBody (f : Word → Word → Word) (r : Reg) {v : Word} (h : v ≠ 0#32) :
    divideBody f r v = combineBody f r v :=
  funext fun u => divideBody_of_ne f r u h

/-- The step of a division by 0: the processor stops, and PC is the next free value (R183, R248). -/
theorem exec_of_divideBody_zero {f : Word → Word → Word} {i : Instr} {o : Operand} {r : Reg} {s u : State}
    (ho : readOperand i = some o) (hbody : bodyOf i 0#32 = divideBody f r 0#32)
    (hv : resolve o s = .ok 0#32) (hu : startBody s = .ok u) :
    exec i s = .next (u.setStoppedAnyPc .divideByZero) := by
  calc exec i s
      _ = finish (bodyOf i 0#32 u) := exec_of_resolve ho hv hu
      _ = .next (u.setStoppedAnyPc .divideByZero) := by rw [hbody, divideBody_of_zero, finish_ended]

end Sys2Proof.Machine

namespace Sys2Proof.Claims

open Sys2Proof.Machine

/-! ### The tables of operations (R180 to R184) -/

/-- An entry of a table of operations agrees with the model where `f` is its operation on words and `shared`
the body of its table: the opcode map has its instruction under its opcode, which reads its
operand and has the body made of `f`, and `f` is the operation of the entry on unsigned values. -/
structure IsOperation (shared : (Word → Word → Word) → Reg → Word → State → Except Abort State)
    (p : Byte × (Reg → Operand → Instr) × (Nat → Nat → Nat)) (f : Word → Word → Word) : Prop where
  row : opcodeRow p.1 = some (.rm p.2.1)
  operand : ∀ r o, readOperand (p.2.1 r o) = some o
  body : ∀ r o v, bodyOf (p.2.1 r o) v = shared f r v
  toNat : ∀ x y : Word, (f x y).toNat = p.2.2 x.toNat y.toNat

/-- The unsigned value of a difference, as the table of the wrapping operations writes it (R181). -/
theorem sub_toNat (x y : Word) : (x - y).toNat = (x.toNat + 2 ^ 32 - y.toNat) % 2 ^ 32 := by
  have inRange : y.toNat < 2 ^ 32 := y.isLt
  rw [BitVec.toNat_sub', Nat.add_sub_assoc inRange.le]

/-- ADD, SUB and MUL, entry by entry. -/
theorem isOperation_of_mem_wrappingOps {p : Byte × (Reg → Operand → Instr) × (Nat → Nat → Nat)}
    (hp : p ∈ wrappingOps) : ∃ f, IsOperation combineBody p f := by
  simp only [wrappingOps, List.mem_cons, List.not_mem_nil, or_false] at hp
  rcases hp with rfl | rfl | rfl
  · exact ⟨_, rfl, fun _ _ => rfl, fun _ _ _ => rfl, BitVec.toNat_add⟩
  · exact ⟨_, rfl, fun _ _ => rfl, fun _ _ _ => rfl, sub_toNat⟩
  · exact ⟨_, rfl, fun _ _ => rfl, fun _ _ _ => rfl, BitVec.toNat_mul⟩

/-- DIV and MOD, entry by entry. -/
theorem isOperation_of_mem_dividingOps {p : Byte × (Reg → Operand → Instr) × (Nat → Nat → Nat)}
    (hp : p ∈ dividingOps) : ∃ f, IsOperation divideBody p f := by
  simp only [dividingOps, List.mem_cons, List.not_mem_nil, or_false] at hp
  rcases hp with rfl | rfl
  · exact ⟨_, rfl, fun _ _ => rfl, fun _ _ _ => rfl, fun _ _ => BitVec.toNat_udiv⟩
  · exact ⟨_, rfl, fun _ _ => rfl, fun _ _ _ => rfl, fun _ _ => BitVec.toNat_umod⟩

/-- Settles O35: each entry combines its register with its operand, and its operation on words is the one
of the table. -/
theorem addSubMulWrapModulo : Obligations.AddSubMulWrapModulo := by
  intro p hp
  obtain ⟨f, row, operand, body, value⟩ := isOperation_of_mem_wrappingOps hp
  exact ⟨decodesRM_of_opcodeRow row, fun r o s u v hv hu =>
    ⟨f (u.getReg r) v, value _ v, exec_of_combineBody (operand r o) (body r o v) hv hu⟩⟩

/-- Settles O36: a divisor that is not 0 makes each entry combine its register with its operand, and a
divisor of 0 stops. -/
theorem divModAreUnsignedAndStopOnZero : Obligations.DivModAreUnsignedAndStopOnZero := by
  intro p hp
  obtain ⟨f, row, operand, body, value⟩ := isOperation_of_mem_dividingOps hp
  refine ⟨decodesRM_of_opcodeRow row, fun r o s u v hv hu => ⟨?nonzero, ?zero⟩⟩
  case nonzero =>
    intro hne
    have combines : bodyOf (p.2.1 r o) v = combineBody f r v :=
      (body r o v).trans (divideBody_eq_combineBody f r hne)
    exact ⟨f (u.getReg r) v, value _ v, exec_of_combineBody (operand r o) combines hv hu⟩
  case zero =>
    rintro rfl
    exact ⟨_, _, exec_of_divideBody_zero (operand r o) (body r o 0#32) hv hu⟩

end Sys2Proof.Claims
end


section
/-! PROOFS. Logical, R190 to R193: the three operations that combine a register with its operand bit by
bit, and NOT, which reads no operand. -/

namespace Sys2Proof.Machine

/-- The step of an instruction without a read-style operand whose body completes (R110). -/
theorem exec_of_body_ok {i : Instr} {s u t : State} (ho : readOperand i = none)
    (hu : startBody s = .ok u) (hbody : bodyOf i 0#32 u = .ok t) : exec i s = .next t := by
  calc exec i s
      _ = finish (bodyOf i 0#32 u) := exec_of_readOperand_none ho hu
      _ = .next t := by rw [hbody, finish_ok]

/-- NOT puts the complement of its register there, in the state the body finds (R193). -/
theorem bodyOf_not (r : Reg) (v : Word) (u : State) :
    bodyOf (.not r) v u = .ok (u.setReg r (~~~ u.getReg r)).advance := rfl

end Sys2Proof.Machine

namespace Sys2Proof.Claims

open Sys2Proof.Machine

/-- An opcode with a row of class `R` decodes to that class. -/
theorem decodesR_of_opcodeRow {opcode : Byte} {build : Reg → Instr}
    (h : opcodeRow opcode = some (.r build)) : decodesR opcode build := by
  rintro raw rfl
  exact decodeRaw_eq_some.2 ⟨_, h, rfl⟩

/-- An entry of the table of bitwise operations agrees with the model where `f` is its operation on words:
the opcode map has its instruction under its opcode, which reads its operand and combines it with its
register by `f`, and each bit of `f` is the operation of the entry on the same bit of the two words. -/
structure IsBitwiseOperation (p : Byte × (Reg → Operand → Instr) × (Bool → Bool → Bool))
    (f : Word → Word → Word) : Prop where
  row : opcodeRow p.1 = some (.rm p.2.1)
  operand : ∀ r o, readOperand (p.2.1 r o) = some o
  body : ∀ r o v, bodyOf (p.2.1 r o) v = combineBody f r v
  bit : ∀ (x y : Word) (k : Nat), (f x y).getLsbD k = p.2.2 (x.getLsbD k) (y.getLsbD k)

/-- AND, OR and XOR, entry by entry. -/
theorem isBitwiseOperation_of_mem_bitwiseOps
    {p : Byte × (Reg → Operand → Instr) × (Bool → Bool → Bool)} (hp : p ∈ bitwiseOps) :
    ∃ f, IsBitwiseOperation p f := by
  simp only [bitwiseOps, List.mem_cons, List.not_mem_nil, or_false] at hp
  rcases hp with rfl | rfl | rfl
  · exact ⟨_, rfl, fun _ _ => rfl, fun _ _ _ => rfl, fun _ _ _ => BitVec.getLsbD_and⟩
  · exact ⟨_, rfl, fun _ _ => rfl, fun _ _ _ => rfl, fun _ _ _ => BitVec.getLsbD_or⟩
  · exact ⟨_, rfl, fun _ _ => rfl, fun _ _ _ => rfl, fun _ _ _ => BitVec.getLsbD_xor⟩

/-- Settles O37: each entry combines its register with its operand, and its operation on words acts bit by
bit as the table says. -/
theorem logicIsBitwise : Obligations.LogicIsBitwise := by
  intro p hp
  obtain ⟨f, row, operand, body, bit⟩ := isBitwiseOperation_of_mem_bitwiseOps hp
  exact ⟨decodesRM_of_opcodeRow row, fun r o s u v hv hu =>
    ⟨f (u.getReg r) v, fun k _ => bit _ v k, exec_of_combineBody (operand r o) (body r o v) hv hu⟩⟩

/-- Settles O38: NOT has a row of class `R`, and its body writes the complement, whose bits below 32 are
the inverted ones. -/
theorem notInvertsEveryBit : Obligations.NotInvertsEveryBit := by
  refine ⟨decodesR_of_opcodeRow rfl, fun r s u hu => ⟨~~~ u.getReg r, fun k hk => ?bit, ?result⟩⟩
  case bit => rw [BitVec.getLsbD_not, decide_eq_true hk, Bool.true_and]
  case result => exact exec_of_body_ok rfl hu (bodyOf_not r 0#32 u)

end Sys2Proof.Claims
end

section
/-! PROOFS. Branches, R200 to R207: the six tests as statements about the signed number in the register, the
step of an instruction with the body of the branches, and JMP, which tests nothing. -/

namespace Sys2Proof.Machine

/-! ### The tests of the branches, on the signed number (R207) -/

/-- The signed number of a word is 0 only for the zero word. -/
theorem int32_eq_zero_iff {v : Word} : int32 v = 0 ↔ v = 0#32 :=
  BitVec.toInt_inj (y := 0#32)

@[simp] theorem testZero_iff {v : Word} : testZero v = true ↔ int32 v = 0 := by
  rw [testZero, decide_eq_true_iff, int32_eq_zero_iff]

@[simp] theorem testNotZero_iff {v : Word} : testNotZero v = true ↔ int32 v ≠ 0 := by
  rw [testNotZero, decide_eq_true_iff, Ne, Ne, int32_eq_zero_iff]

@[simp] theorem testPositive_iff {v : Word} : testPositive v = true ↔ int32 v > 0 := decide_eq_true_iff

@[simp] theorem testNotNegative_iff {v : Word} : testNotNegative v = true ↔ int32 v ≥ 0 := decide_eq_true_iff

@[simp] theorem testNegative_iff {v : Word} : testNegative v = true ↔ int32 v < 0 := decide_eq_true_iff

@[simp] theorem testNotPositive_iff {v : Word} : testNotPositive v = true ↔ int32 v ≤ 0 := decide_eq_true_iff

/-! ### The steps -/

/-- The step of an instruction whose body is that of the branches: only PC changes, to the target or to the
next instruction (R201, R207). -/
theorem exec_of_branchBody {test : Word → Bool} {i : Instr} {r : Reg} {target : Word} {s u : State}
    (ho : readOperand i = none) (hbody : bodyOf i 0#32 = branchBody test r target)
    (hu : startBody s = .ok u) :
    exec i s = .next { u with pc := if test (u.getReg r) then target else u.pc + 8#32 } := by
  have completes : bodyOf i 0#32 u = .ok (u.setPc (if test (u.getReg r) then target else u.nextPc)) := by
    rw [hbody, branchBody_eq]
  exact exec_of_body_ok ho hu completes

/-- JMP puts its target in PC as it is (R200). -/
theorem bodyOf_jmp (target v : Word) (u : State) : bodyOf (.jmp target) v u = .ok (u.setPc target) := rfl

end Sys2Proof.Machine

namespace Sys2Proof.Claims

open Sys2Proof.Machine

/-- An opcode with a row of class `RT` decodes to that class. -/
theorem decodesRT_of_opcodeRow {opcode : Byte} {build : Reg → Word → Instr}
    (h : opcodeRow opcode = some (.rt build)) : decodesRT opcode build := by
  rintro raw rfl
  exact decodeRaw_eq_some.2 ⟨_, h, rfl⟩

/-- An opcode with a row of class `T` decodes to that class. -/
theorem decodesT_of_opcodeRow {opcode : Byte} {build : Word → Instr}
    (h : opcodeRow opcode = some (.t build)) : decodesT opcode build := by
  rintro raw rfl
  exact decodeRaw_eq_some.2 ⟨_, h, rfl⟩

/-- An entry of the table of conditional branches agrees with the model where `test` is its test on words:
the opcode map has its instruction under its opcode, which reads no operand before its body and has the
body of the branches with `test`, and `test` is the condition of the entry on the signed number. -/
structure IsConditionalBranch (p : Byte × (Reg → Word → Instr) × (Int → Prop)) (test : Word → Bool) :
    Prop where
  row : opcodeRow p.1 = some (.rt p.2.1)
  noRead : ∀ r target, readOperand (p.2.1 r target) = none
  body : ∀ r target, bodyOf (p.2.1 r target) 0#32 = branchBody test r target
  passes_iff : ∀ v : Word, test v = true ↔ p.2.2 v.toInt

/-- JNZ, JZ, JGT, JGE, JLT and JLE, entry by entry. -/
theorem isConditionalBranch_of_mem_conditionalBranches {p : Byte × (Reg → Word → Instr) × (Int → Prop)}
    (hp : p ∈ conditionalBranches) : ∃ test, IsConditionalBranch p test := by
  simp only [conditionalBranches, List.mem_cons, List.not_mem_nil, or_false] at hp
  rcases hp with rfl | rfl | rfl | rfl | rfl | rfl
  · exact ⟨_, rfl, fun _ _ => rfl, fun _ _ => rfl, fun _ => testNotZero_iff⟩
  · exact ⟨_, rfl, fun _ _ => rfl, fun _ _ => rfl, fun _ => testZero_iff⟩
  · exact ⟨_, rfl, fun _ _ => rfl, fun _ _ => rfl, fun _ => testPositive_iff⟩
  · exact ⟨_, rfl, fun _ _ => rfl, fun _ _ => rfl, fun _ => testNotNegative_iff⟩
  · exact ⟨_, rfl, fun _ _ => rfl, fun _ _ => rfl, fun _ => testNegative_iff⟩
  · exact ⟨_, rfl, fun _ _ => rfl, fun _ _ => rfl, fun _ => testNotPositive_iff⟩

/-- Settles O42: each entry has the body of the branches, whose test is the condition of the table on the
signed number in the register. -/
theorem branchesTestOneRegister : Obligations.BranchesTestOneRegister := by
  intro p hp
  obtain ⟨test, row, noRead, body, passes_iff⟩ := isConditionalBranch_of_mem_conditionalBranches hp
  refine ⟨decodesRT_of_opcodeRow row, fun r target s u hu => ?_⟩
  rw [exec_of_branchBody (noRead r target) (body r target) hu, ← passes_iff]
  exact ⟨fun taken => by rw [if_pos taken], fun notTaken => by rw [if_neg notTaken]⟩

/-- Settles O41: JMP has a row of class `T`, and its body loads the target. -/
theorem jumpLoadsItsTarget : Obligations.JumpLoadsItsTarget :=
  ⟨decodesT_of_opcodeRow rfl, fun target _ u hu => exec_of_body_ok rfl hu (bodyOf_jmp target 0#32 u)⟩

end Sys2Proof.Claims
end

section
/-! PROOFS. Subroutine and stack, R210 to R214: the step of an instruction that pushes or pops and then only
moves data, on both sides of its stack check, and the four instructions that do so. -/

namespace Sys2Proof.Machine

/-- The step of an instruction without a read-style operand whose body ends it (R8, R110). -/
theorem exec_of_body_ended {i : Instr} {s u t : State} (ho : readOperand i = none)
    (hu : startBody s = .ok u) (hbody : bodyOf i 0#32 u = .error (.ended t)) : exec i s = .next t := by
  calc exec i s
      _ = finish (bodyOf i 0#32 u) := exec_of_readOperand_none ho hu
      _ = .next t := by rw [hbody, finish_ended]

/-! ### Steps that push (R214) -/

section
variable {i : Instr} {w : Word} {g : State → State} {s u : State}

/-- With room on the stack, the word goes on the new stack top and the change `g` follows. -/
theorem exec_of_push (ho : readOperand i = none)
    (hbody : bodyOf i 0#32 u = (push w u >>= fun t => .ok (g t))) (hu : startBody s = .ok u)
    (hroom : 0x2004 ≤ u.sp.toNat) (hbacks : u.backs (u.sp - 4#32) 4 = true) :
    exec i s =
      .next (g { u with sp := u.sp - 4#32, mem := u.mem.writeWord (u.sp - 4#32).toNat w }) := by
  have pushes : push w u =
      .ok { u with sp := u.sp - 4#32, mem := u.mem.writeWord (u.sp - 4#32).toNat w } :=
    push_eq_ok.2 ⟨hroom, hbacks, rfl⟩
  exact exec_of_body_ok ho hu (hbody.trans (bind_eq_ok.2 ⟨_, pushes, rfl⟩))

/-- Without room, the stop comes before the store and before `g` (R248). -/
theorem exec_of_push_overflow (ho : readOperand i = none)
    (hbody : bodyOf i 0#32 u = (push w u >>= fun t => .ok (g t))) (hu : startBody s = .ok u)
    (hfull : u.sp.toNat < 0x2004) : exec i s = .next (u.setStoppedAnyPc .stackOverflow) := by
  have stops : push w u = .error (.ended (u.setStoppedAnyPc .stackOverflow)) :=
    push_eq_error.2 (.inl ⟨hfull, rfl⟩)
  exact exec_of_body_ended ho hu (hbody.trans (bind_eq_error.2 (.inl stops)))

end

/-! ### Steps that pop (R214) -/

section
variable {i : Instr} {g : Word × State → State} {s u : State}

/-- With a word on the stack that can be read, SP moves past it and the change `g` follows. -/
theorem exec_of_pop {v : Word} (ho : readOperand i = none)
    (hbody : bodyOf i 0#32 u = (pop u >>= fun p => .ok (g p))) (hu : startBody s = .ok u)
    (hfilled : u.sp.toNat < 0x9F000) (hv : memRead u.sp u = .ok v) :
    exec i s = .next (g (v, u.setSp (u.sp + 4#32))) := by
  obtain ⟨hbacks, rfl⟩ := memRead_eq_ok.1 hv
  have pops : pop u = .ok (u.mem.readWord u.sp.toNat, u.setSp (u.sp + 4#32)) :=
    pop_eq_ok.2 ⟨hfilled, hbacks, rfl⟩
  exact exec_of_body_ok ho hu (hbody.trans (bind_eq_ok.2 ⟨_, pops, rfl⟩))

/-- With nothing on the stack, the stop comes before the read and before `g` (R248). -/
theorem exec_of_pop_underflow (ho : readOperand i = none)
    (hbody : bodyOf i 0#32 u = (pop u >>= fun p => .ok (g p))) (hu : startBody s = .ok u)
    (hempty : 0x9F000 ≤ u.sp.toNat) : exec i s = .next (u.setStoppedAnyPc .stackUnderflow) := by
  have stops : pop u = .error (.ended (u.setStoppedAnyPc .stackUnderflow)) :=
    pop_eq_error.2 (.inl ⟨hempty, rfl⟩)
  exact exec_of_body_ended ho hu (hbody.trans (bind_eq_error.2 (.inl stops)))

end

/-! ### The four bodies (R210 to R213) -/

theorem bodyOf_push (r : Reg) (v : Word) (u : State) :
    bodyOf (.push r) v u = (push (u.getReg r) u >>= fun t => .ok t.advance) := rfl

theorem bodyOf_pop (r : Reg) (v : Word) (u : State) :
    bodyOf (.pop r) v u = (pop u >>= fun p => .ok (p.2.setReg r p.1).advance) := rfl

theorem bodyOf_jsr (target v : Word) (u : State) :
    bodyOf (.jsr target) v u = (push u.nextPc u >>= fun t => .ok (t.setPc target)) := rfl

theorem bodyOf_rts (v : Word) (u : State) :
    bodyOf .rts v u = (pop u >>= fun p => .ok (p.2.setPc p.1)) := rfl

end Sys2Proof.Machine

namespace Sys2Proof.Claims

open Sys2Proof.Machine

/-- An opcode with a row of class `N` decodes to that class. -/
theorem decodesN_of_opcodeRow {opcode : Byte} {i : Instr}
    (h : opcodeRow opcode = some (.n i)) : decodesN opcode i := by
  rintro raw rfl
  exact decodeRaw_eq_some.2 ⟨_, h, rfl⟩

/-- Settles O43: PUSH has a row of class `R`, and its body pushes its register and advances. -/
theorem pushStoresItsRegister : Obligations.PushStoresItsRegister := by
  refine ⟨decodesR_of_opcodeRow rfl, fun r s u hu => ⟨?room, ?overflow⟩⟩
  case room => exact exec_of_push rfl (bodyOf_push r 0#32 u) hu
  case overflow => exact fun hfull => ⟨_, _, exec_of_push_overflow rfl (bodyOf_push r 0#32 u) hu hfull⟩

/-- Settles O44: POP has a row of class `R`, and its body pops, writes its register and advances. -/
theorem popLoadsItsRegister : Obligations.PopLoadsItsRegister := by
  refine ⟨decodesR_of_opcodeRow rfl, fun r s u hu => ⟨fun v => ?filled, ?underflow⟩⟩
  case filled => exact exec_of_pop rfl (bodyOf_pop r 0#32 u) hu
  case underflow =>
    exact fun hempty => ⟨_, _, exec_of_pop_underflow rfl (bodyOf_pop r 0#32 u) hu hempty⟩

/-- Settles O45: JSR has a row of class `T`, and its body pushes the address of the next instruction and
loads the target. -/
theorem jsrPushesTheReturnAddress : Obligations.JsrPushesTheReturnAddress := by
  refine ⟨decodesT_of_opcodeRow rfl, fun target s u hu => ⟨?room, ?overflow⟩⟩
  case room => exact exec_of_push rfl (bodyOf_jsr target 0#32 u) hu
  case overflow =>
    exact fun hfull => ⟨_, _, exec_of_push_overflow rfl (bodyOf_jsr target 0#32 u) hu hfull⟩

/-- Settles O46: RTS has a row of class `N`, and its body pops and puts the word in PC as it is. -/
theorem rtsPopsThePc : Obligations.RtsPopsThePc := by
  refine ⟨decodesN_of_opcodeRow rfl, fun s u hu => ⟨fun v => ?filled, ?underflow⟩⟩
  case filled => exact exec_of_pop rfl (bodyOf_rts 0#32 u) hu
  case underflow =>
    exact fun hempty => ⟨_, _, exec_of_pop_underflow rfl (bodyOf_rts 0#32 u) hu hempty⟩

end Sys2Proof.Claims
end

section
/-! PROOFS. Interrupt and timer control, R220 and R221: the two instructions that write the interrupt-enable
latch. -/

namespace Sys2Proof.Machine

theorem bodyOf_sei (v : Word) (u : State) : bodyOf .sei v u = .ok (u.setIe true).advance := rfl

theorem bodyOf_cli (v : Word) (u : State) : bodyOf .cli v u = .ok (u.setIe false).advance := rfl

end Sys2Proof.Machine

namespace Sys2Proof.Claims

open Sys2Proof.Machine

/-- Settles O48: SEI and CLI have rows of class `N`, and their bodies write the latch and advance, in the
state the timer step has left. -/
theorem seiEnablesAndCliDisables : Obligations.SeiEnablesAndCliDisables := by
  refine ⟨decodesN_of_opcodeRow rfl, decodesN_of_opcodeRow rfl, fun s u hu => ⟨?sei, ?cli⟩⟩
  case sei => exact exec_of_body_ok rfl hu (bodyOf_sei 0#32 u)
  case cli => exact exec_of_body_ok rfl hu (bodyOf_cli 0#32 u)

end Sys2Proof.Claims
end

section
/-! PROOFS. System, R230 and R231: the instruction that only advances PC and the one that stops the
processor where it is. -/

namespace Sys2Proof.Machine

theorem bodyOf_nop (v : Word) (u : State) : bodyOf .nop v u = .ok u.advance := rfl

/-- The stop of HALT keeps PC, unlike the stops of R248. -/
theorem bodyOf_halt (v : Word) (u : State) :
    bodyOf .halt v u = .error (.ended (u.setStopped .halt)) := rfl

end Sys2Proof.Machine

namespace Sys2Proof.Claims

open Sys2Proof.Machine

/-- Settles O51: NOP has a row of class `N`, and its body only advances. -/
theorem nopOnlyAdvances : Obligations.NopOnlyAdvances :=
  ⟨decodesN_of_opcodeRow rfl, fun _ u hu => exec_of_body_ok rfl hu (bodyOf_nop 0#32 u)⟩

/-- Settles O52: HALT has a row of class `N`, and its body ends the step in the stopped processor state,
before any advance of PC. -/
theorem haltStopsWhereItIs : Obligations.HaltStopsWhereItIs :=
  ⟨decodesN_of_opcodeRow rfl, fun _ u hu => exec_of_body_ended rfl hu (bodyOf_halt 0#32 u)⟩

end Sys2Proof.Claims
end

section
/-! PROOFS. Exceptions, R240 to R256: the branches of the timer step, what a body does to the timer and to
the run state, and with both what a step can end in. -/

namespace Sys2Proof.Machine

/-! ### The branches of the timer step (R250) -/

section
variable {s : State}

theorem timerStep_of_disabled (disabled : s.tEn = false) : timerStep s = .ok (s, false) := by
  rw [timerStep, if_pos disabled]

/-- The prescaler counts up to the divider. -/
theorem timerStep_of_counting (enabled : s.tEn = true) {p : Fin 44100} (hp : p.val = s.tPre.val + 1) :
    timerStep s = .ok ({ s with tPre := p }, false) := by
  have below : s.tPre.val + 1 < Config.timerDivider := hp ▸ p.isLt
  have counted : s.tPre + 1 = p := Fin.ext (by rw [hp, Fin.val_add]; exact Nat.mod_eq_of_lt below)
  rw [timerStep, if_neg (ne_false_of_eq_true enabled), if_pos below, counted]

/-- At the divider the prescaler is cleared, and what follows depends on the countdown alone. -/
theorem timerStep_of_prescaler_full (enabled : s.tEn = true) (full : s.tPre.val = 44099) :
    timerStep s =
      if s.tCount = 0#32 then .ok ({ s with tPre := 0 }, false)
      else if s.tCount - 1#32 ≠ 0#32 then .ok ({ s with tPre := 0, tCount := s.tCount - 1#32 }, false)
      else timerExpiry { s with tPre := 0, tCount := s.tCount - 1#32 } := by
  have notBelow : ¬ s.tPre.val + 1 < Config.timerDivider := by simp [full]
  rw [timerStep, if_neg (ne_false_of_eq_true enabled), if_neg notBelow]

theorem timerStep_of_count_zero (enabled : s.tEn = true) (full : s.tPre.val = 44099)
    (zero : s.tCount = 0#32) : timerStep s = .ok ({ s with tPre := 0 }, false) := by
  rw [timerStep_of_prescaler_full enabled full, if_pos zero]

theorem timerStep_of_two_le_count (enabled : s.tEn = true) (full : s.tPre.val = 44099)
    (large : 2 ≤ s.tCount.toNat) :
    timerStep s = .ok ({ s with tPre := 0, tCount := s.tCount - 1#32 }, false) := by
  have notZero : ¬ s.tCount = 0#32 := by bv_omega
  have staysPositive : s.tCount - 1#32 ≠ 0#32 := by bv_omega
  rw [timerStep_of_prescaler_full enabled full, if_neg notZero, if_pos staysPositive]

/-- The decrement to 0 is the expiry. -/
theorem timerStep_of_count_one (enabled : s.tEn = true) (full : s.tPre.val = 44099)
    (one : s.tCount = 1#32) : timerStep s = timerExpiry { s with tPre := 0, tCount := 0#32 } := by
  have notZero : ¬ (1#32 : Word) = 0#32 := by decide
  have reachesZero : ¬ (1#32 : Word) - 1#32 ≠ 0#32 := by decide
  rw [timerStep_of_prescaler_full enabled full, one, if_neg notZero, if_neg reachesZero]
  rfl

/-- An expiry that is not delivered marks the timer and reloads the countdown (R255). -/
theorem timerStep_of_undelivered (enabled : s.tEn = true) (full : s.tPre.val = 44099)
    (one : s.tCount = 1#32) (masked : s.ie = false ∨ s.inirq = true) :
    timerStep s = .ok ({ s with tPre := 0, tCount := s.tPeriod, tState := .expired }, false) := by
  have notDelivered : ¬ (s.ie = true ∧ s.inirq = false) := by
    rintro ⟨hie, hin⟩
    simp [hie, hin] at masked
  rw [timerStep_of_count_one enabled full one, timerExpiry, if_neg notDelivered, State.timerReload,
    if_pos enabled]

/-- The delivery condition of R252, element by element. -/
theorem State.interruptDue_iff_elements :
    s.interruptDue = true ↔
      s.tEn = true ∧ s.tPre.val = 44099 ∧ s.tCount = 1#32 ∧ s.ie = true ∧ s.inirq = false := by
  rw [State.interruptDue_iff, State.timerExpires_iff, and_assoc, and_assoc]
  exact and_congr_right fun _ => and_congr_left fun _ => Nat.succ_inj

/-- A timer step that enters an interrupt is one in which it is due. -/
theorem interruptDue_of_entered {t : State} (h : timerStep s = .ok (t, true)) :
    s.interruptDue = true := by
  by_contra notDue
  rw [timerStep_of_not_due (Bool.eq_false_iff.2 notDue)] at h
  cases h

/-- Without room on the stack a due entry stops the processor in the timer step (R253, R256). -/
theorem timerStep_of_overflow (hdue : s.interruptDue = true) (hsp : s.sp.toNat ≤ 0x2000) :
    timerStep s = .error (.ended (s.atExpiry.setStoppedAnyPc .stackOverflow).overflowReload) := by
  have overflows : interruptEntry s.atExpiry =
      .error (.ended (s.atExpiry.setStoppedAnyPc .stackOverflow)) :=
    bind_eq_error.2 (.inl (pushIrq_eq_error.2 (.inl ⟨hsp, rfl⟩)))
  rw [timerStep_of_due hdue, overflows]

end

/-! ### The interrupt entry and the timer step before a body -/

/-- An entry changes PC, SP, memory and the interrupt-active latch alone (R254). -/
theorem interruptEntry_frame {s e : State} (h : interruptEntry s = .ok e) :
    ∃ pc sp mem, e = { s with pc := pc, sp := sp, mem := mem, inirq := true } := by
  obtain ⟨s1, hpush, -, rfl⟩ := interruptEntry_eq_ok.1 h
  obtain ⟨-, -, rfl⟩ := pushIrq_eq_ok.1 hpush
  exact ⟨_, _, _, rfl⟩

/-- The reload after an entry, which has left the timer enabled. -/
theorem timerReload_of_entry {s e : State} (enabled : s.tEn = true)
    (h : interruptEntry s.atExpiry = .ok e) : e.timerReload = { e with tCount := e.tPeriod } := by
  obtain ⟨pc, sp, mem, rfl⟩ := interruptEntry_frame h
  exact if_pos enabled

/-- An entry and its reload leave the run state alone. -/
theorem timerReload_run_of_entry {s e : State} (h : interruptEntry s.atExpiry = .ok e) :
    e.timerReload.run = s.run := by
  obtain ⟨pc, sp, mem, rfl⟩ := interruptEntry_frame h
  rw [State.timerReload_run, State.atExpiry_run]

/-- A body runs in a state that the timer step has answered. -/
theorem timerStep_of_startBody_ok {s u : State} (h : startBody s = .ok u) :
    ∃ b, timerStep s = .ok (u, b) := by
  unfold startBody startBodyWith at h
  split at h
  · cases h
  · next hstep => cases h; exact ⟨false, hstep⟩
  · next hstep =>
    split at h
    · cases h; exact ⟨true, hstep⟩
    · cases h

/-- A step that ends before its body ends in an abandoning entry or in a stop of the timer step. -/
theorem timerStep_of_startBody_ended {s t : State} (h : startBody s = .error (.ended t)) :
    timerStep s = .ok (t, true) ∨ timerStep s = .error (.ended t) := by
  unfold startBody startBodyWith at h
  split at h
  · next hstep => cases h; exact .inr hstep
  · cases h
  · next hstep =>
    split at h
    · cases h
    · cases h; exact .inl hstep

/-- The state a body runs in has the run state the step began in. -/
theorem startBody_keeps_run {s u : State} (h : startBody s = .ok u) : u.run = s.run := by
  rcases startBodyWith_eq_ok h with ⟨-, rfl⟩ | ⟨-, -, e, he, rfl⟩
  · exact s.afterTimer_run
  · exact timerReload_run_of_entry he

/-! ### Three bodies that can stop (R183, R184, R222) -/

theorem bodyOf_div (r : Reg) (o : Operand) (v : Word) :
    bodyOf (.div r o) v = divideBody BitVec.udiv r v := rfl

theorem bodyOf_mod (r : Reg) (o : Operand) (v : Word) :
    bodyOf (.mod r o) v = divideBody BitVec.umod r v := rfl

/-- RTI pops, loads PC and clears the interrupt-active latch (R222). -/
theorem bodyOf_rti (v : Word) (u : State) :
    bodyOf .rti v u = (pop u >>= fun p => .ok ((p.2.setPc p.1).setInirq false)) := rfl

end Sys2Proof.Machine

namespace Sys2Proof.Claims

open Sys2Proof.Machine

/-! ### What a body can end in (R110, R240) -/

/-- The run state and the timer are the same. -/
def sameRunAndTimer (u t : State) : Prop := t.run = u.run ∧ sameTimer u t

/-- Writing registers, PC, SP, the latches or memory keeps both. -/
theorem sameRunAndTimer_of_writes {u : State} {regs : Regs} {pc sp : Word} {ie inirq : Bool} {mem : Memory} :
    sameRunAndTimer u
      { u with regs := regs, pc := pc, sp := sp, ie := ie, inirq := inirq, mem := mem } :=
  ⟨rfl, rfl, rfl, rfl, rfl, rfl, rfl⟩

/-- A stop keeps the timer (R248). -/
theorem sameTimer_stop (u : State) (c : StopCause) : sameTimer u (u.stop c) := by
  obtain ⟨-, -, -, -, hen, hcount, hperiod, hpre, hstate, -, hinstalled⟩ := u.stop_frame c
  exact ⟨hen, hcount, hperiod, hpre, hstate, hinstalled⟩

/-- The outcomes of a body that begins in `u` and may raise the stops `stops`: it completes and keeps the
run state and the timer, it raises one of its stops, or an access of it is refused. -/
inductive BodyEnds (u : State) (stops : StopCause → Prop) : Except Abort State → Prop where
  | completes {t : State} (kept : sameRunAndTimer u t) : BodyEnds u stops (.ok t)
  | raises {c : StopCause} (cause : stops c) : BodyEnds u stops (.error (.ended (u.stop c)))
  | refused {e : Abort} (access : accessRefused u e) : BodyEnds u stops (.error e)

section
variable {u : State} {stops : StopCause → Prop}

theorem branchBody_ends (test : Word → Bool) (r : Reg) (target : Word) :
    BodyEnds u stops (branchBody test r target u) := by
  rw [branchBody_eq]
  exact .completes sameRunAndTimer_of_writes

theorem storeBody_ends (r : Reg) (o : Operand) : BodyEnds u stops (storeBody r o u) := by
  cases h : storeBody r o u with
  | ok t =>
    obtain ⟨a, -, -, rfl⟩ := storeBody_eq_ok.1 h
    exact .completes sameRunAndTimer_of_writes
  | error e => exact .refused (storeBody_eq_error h)

theorem incDecBody_ends (f : Word → Word) (o : Operand) : BodyEnds u stops (incDecBody f o u) := by
  cases h : incDecBody f o u with
  | ok t =>
    rcases incDecBody_eq_ok.1 h with ⟨-, rfl⟩ | ⟨-, a, -, -, rfl⟩
    all_goals exact .completes sameRunAndTimer_of_writes
  | error e => exact .refused (incDecBody_eq_error h)

/-- A division by 0 is the one that stops (R243). -/
theorem divideBody_ends (f : Word → Word → Word) (r : Reg) {v : Word}
    (hzero : v = 0#32 → stops .divideByZero) : BodyEnds u stops (divideBody f r v u) := by
  by_cases h : v = 0#32
  · subst h
    exact .raises (hzero rfl)
  · rw [divideBody_of_ne f r u h]
    exact .completes sameRunAndTimer_of_writes

/-- A body that pushes and then only moves data stops by overflow alone (R214, R247). -/
theorem push_then_ends {w : Word} {g : State → State} (hg : ∀ t, sameRunAndTimer t (g t))
    (hfull : u.sp.toNat < 0x2004 → stops .stackOverflow) :
    BodyEnds u stops (push w u >>= fun t => .ok (g t)) := by
  cases h : push w u with
  | ok t =>
    obtain ⟨-, -, rfl⟩ := push_eq_ok.1 h
    exact .completes (hg _)
  | error e =>
    rcases push_eq_error.1 h with ⟨hsp, rfl⟩ | ⟨-, access⟩
    · exact .raises (c := .stackOverflow) (hfull hsp)
    · exact .refused ⟨_, access⟩

/-- A body that pops and then only moves data stops by underflow alone (R214, R247). -/
theorem pop_then_ends {g : Word × State → State} (hg : ∀ p, sameRunAndTimer p.2 (g p))
    (hempty : 0x9F000 ≤ u.sp.toNat → stops .stackUnderflow) :
    BodyEnds u stops (pop u >>= fun p => .ok (g p)) := by
  cases h : pop u with
  | ok p =>
    obtain ⟨-, -, rfl⟩ := pop_eq_ok.1 h
    exact .completes (hg _)
  | error e =>
    rcases pop_eq_error.1 h with ⟨hsp, rfl⟩ | ⟨-, access⟩
    · exact .raises (c := .stackUnderflow) (hempty hsp)
    · exact .refused ⟨_, access⟩

end

/-- The body of every instruction, on the value its operand resolves to, stops only by the table of
R240. -/
theorem bodyOf_ends {i : Instr} {s u : State} {v : Word}
    (hread : ∀ o, readOperand i = some o → resolve o s = .ok v) :
    BodyEnds u (bodyStops (some i) s u) (bodyOf i v u) := by
  cases i
  case halt => exact .raises (c := .halt) rfl
  case div r o => exact divideBody_ends _ r fun h => ⟨r, o, .inl rfl, h ▸ hread o rfl⟩
  case mod r o => exact divideBody_ends _ r fun h => ⟨r, o, .inr rfl, h ▸ hread o rfl⟩
  case push r =>
    exact push_then_ends (fun _ => sameRunAndTimer_of_writes) fun h => ⟨.inl ⟨r, rfl⟩, h⟩
  case jsr a =>
    exact push_then_ends (fun _ => sameRunAndTimer_of_writes) fun h => ⟨.inr ⟨a, rfl⟩, h⟩
  case pop r =>
    exact pop_then_ends (fun _ => sameRunAndTimer_of_writes) fun h => ⟨.inl ⟨r, rfl⟩, h⟩
  case rts =>
    exact pop_then_ends (fun _ => sameRunAndTimer_of_writes) fun h => ⟨.inr (.inl rfl), h⟩
  case rti =>
    exact pop_then_ends (fun _ => sameRunAndTimer_of_writes) fun h => ⟨.inr (.inr rfl), h⟩
  case inc | dec => exact incDecBody_ends _ _
  case jnz | jz | jgt | jge | jlt | jle => exact branchBody_ends _ _ _
  case store | sta | stx | sty | stz | stb | stc | std | ste | stf | stg | stu | stv | stw | sth | sts
      | stt => exact storeBody_ends _ _
  all_goals exact .completes sameRunAndTimer_of_writes

/-! ### What a step can end in (R110) -/

/-- The ends of the step of a decoded instruction, or of a reserved opcode for `none`: before the body, or
with a body that completes or raises a stop of the table of R240. -/
inductive StepEnds (d : Option Instr) (s t : State) : Prop where
  | beforeBody (ended : startBody s = .error (.ended t))
  | completed {u : State} (hu : startBody s = .ok u) (kept : sameRunAndTimer u t)
  | stopped {u : State} {c : StopCause} (hu : startBody s = .ok u) (cause : bodyStops d s u c)
      (ht : t = u.stop c)

theorem stepEnds_of_exec {i : Instr} {s t : State} (h : exec i s = .next t) : StepEnds (some i) s t := by
  obtain ⟨-, ended | ⟨v, u, hread, hu, hbody⟩⟩ := exec_eq_next h
  · exact .beforeBody ended
  · have ends : BodyEnds u (bodyStops (some i) s u) (bodyOf i v u) := bodyOf_ends hread
    rcases hbody with hbody | hbody <;> rw [hbody] at ends <;> cases ends
    case inl.completes kept => exact .completed hu kept
    case inr.raises cause => exact .stopped hu cause rfl
    case inr.refused access => obtain ⟨_, -, he⟩ := access; cases he

theorem stepEnds_of_execReservedOpcode {s t : State} (h : execReservedOpcode s = .next t) :
    StepEnds none s t := by
  rcases execReservedOpcode_eq_next h with ended | ⟨u, hu, rfl⟩
  · exact .beforeBody ended
  · exact .stopped (c := .reservedOpcode) hu rfl rfl

theorem stepEnds_of_step {s t : State} {raw : RawInstr} (hfetch : fetch s = .ok raw)
    (h : step s = .next t) : StepEnds (decodeRaw raw) s t := by
  obtain ⟨-, raw', hfetch', hexec⟩ := step_eq_next h
  cases hfetch.symm.trans hfetch'
  rcases hexec with ⟨i, hdec, hexec⟩ | ⟨hdec, hexec⟩
  · exact hdec ▸ stepEnds_of_exec hexec
  · exact hdec ▸ stepEnds_of_execReservedOpcode hexec

/-- The step of a word the decoder accepts. -/
theorem step_of_decodeRaw_some {s : State} {raw : RawInstr} {i : Instr} (hrun : s.run = .running)
    (hfetch : fetch s = .ok raw) (hdec : decodeRaw raw = some i) : step s = exec i s := by
  simp only [step, hrun, hfetch, hdec]

/-! ### The timer in a step -/

/-- A step leaves the timer as its timer step does, and a stop of the timer step is the whole step. -/
theorem StepEnds.keeps_timer {d : Option Instr} {s t : State} (h : StepEnds d s t) :
    timerStep s = .error (.ended t) ∨
      ∃ u b, timerStep s = .ok (u, b) ∧ sameTimer u t := by
  cases h with
  | beforeBody ended =>
    rcases timerStep_of_startBody_ended ended with entered | stops
    · exact .inr ⟨t, true, entered, rfl, rfl, rfl, rfl, rfl, rfl⟩
    · exact .inl stops
  | completed hu kept =>
    obtain ⟨b, hstep⟩ := timerStep_of_startBody_ok hu
    obtain ⟨-, keptTimer⟩ := kept
    exact .inr ⟨_, b, hstep, keptTimer⟩
  | stopped hu cause ht =>
    obtain ⟨b, hstep⟩ := timerStep_of_startBody_ok hu
    exact .inr ⟨_, b, hstep, ht ▸ sameTimer_stop _ _⟩

/-- Settles O20: the branches one by one, and then what the end of a step has kept since the timer step. -/
theorem timerStepFollowsItsRule : Obligations.TimerStepFollowsItsRule := by
  intro s
  refine ⟨timerStep_of_disabled, fun enabled _ => timerStep_of_counting enabled, timerStep_of_count_zero,
    timerStep_of_two_le_count, timerStep_of_undelivered, ?entered, ?overflow, ?inAStep⟩
  case entered =>
    intro enabled full one hie hin e hentry
    have hdue : s.interruptDue = true := State.interruptDue_iff_elements.2 ⟨enabled, full, one, hie, hin⟩
    rw [timerStep_of_entry hdue hentry, timerReload_of_entry enabled hentry]
  case overflow =>
    intro enabled full one hie hin hsp
    have hdue : s.interruptDue = true := State.interruptDue_iff_elements.2 ⟨enabled, full, one, hie, hin⟩
    exact ⟨_, timerStep_of_overflow hdue hsp, rfl, rfl, rfl⟩
  case inAStep =>
    intro t hnext
    have ends : ∃ d, StepEnds d s t := by
      rcases hnext with ⟨i, hexec⟩ | hreserved
      · exact ⟨some i, stepEnds_of_exec hexec⟩
      · exact ⟨none, stepEnds_of_execReservedOpcode hreserved⟩
    obtain ⟨d, ends⟩ := ends
    rcases ends.keeps_timer with stops | ⟨u, b, answers, -, hcount, -, hpre, hstate, -⟩
    · rw [stops]
      exact ⟨nofun, fun _ hu => by cases hu; rfl⟩
    · rw [answers]
      exact ⟨fun _ _ hu => by cases hu; exact ⟨hpre, hcount, hstate⟩, nofun⟩

/-- Settles O21: the entry is the branch of the due interrupt, and with its accesses installed it is
taken. -/
theorem interruptIsEnteredExactlyWhenDue : Obligations.InterruptIsEnteredExactlyWhenDue := by
  intro s
  refine ⟨fun t entered => State.interruptDue_iff_elements.1 (interruptDue_of_entered entered), ?_⟩
  intro enabled full one hie hin hsp hstack hvector
  have hdue : s.interruptDue = true := State.interruptDue_iff_elements.2 ⟨enabled, full, one, hie, hin⟩
  exact ⟨afterEntry s, timerStep_eq_afterEntry hdue hsp hstack hvector⟩

/-! ### The stops of a step (R240) -/

/-- A step that stops before its body stops by an entry without room on the stack: an abandoning entry
leaves the processor running. -/
theorem stop_beforeBody {s t : State} {c : StopCause} (hrun : s.run = .running)
    (ended : startBody s = .error (.ended t)) (hstop : t.run = .stopped c) :
    c = .stackOverflow ∧ s.interruptDue = true ∧ s.sp.toNat ≤ 0x2000 := by
  obtain ⟨hdue, ⟨-, e, hentry, he⟩ | ⟨hsp, he⟩ | ⟨a, -, he⟩⟩ := startBodyWith_eq_error ended
  · cases he
    rw [timerReload_run_of_entry hentry, hrun] at hstop
    cases hstop
  · cases he
    cases hstop
    exact ⟨rfl, hdue, hsp⟩
  · cases he

/-- The one row of the table for a reserved opcode. -/
theorem bodyStops_none_iff {s u : State} {c : StopCause} : bodyStops none s u c ↔ c = .reservedOpcode := by
  cases c <;> simp [bodyStops]

/-- A stop of the table ends the step of an instruction whose body runs. -/
theorem exec_of_bodyStops {i : Instr} {s u : State} {c : StopCause} (hu : startBody s = .ok u)
    (h : bodyStops (some i) s u c) : exec i s = .next (u.stop c) := by
  cases c with
  | halt =>
    cases h
    exact exec_of_body_ended rfl hu (bodyOf_halt 0#32 u)
  | reservedOpcode => cases h
  | divideByZero =>
    obtain ⟨r, o, ⟨⟨⟩⟩ | ⟨⟨⟩⟩, hzero⟩ := h
    · exact exec_of_divideBody_zero rfl (bodyOf_div r o 0#32) hzero hu
    · exact exec_of_divideBody_zero rfl (bodyOf_mod r o 0#32) hzero hu
  | stackOverflow =>
    obtain ⟨⟨r, ⟨⟩⟩ | ⟨a, ⟨⟩⟩, hfull⟩ := h
    · exact exec_of_push_overflow rfl (bodyOf_push r 0#32 u) hu hfull
    · exact exec_of_push_overflow rfl (bodyOf_jsr a 0#32 u) hu hfull
  | stackUnderflow =>
    obtain ⟨⟨r, ⟨⟩⟩ | ⟨⟨⟩⟩ | ⟨⟨⟩⟩, hempty⟩ := h
    · exact exec_of_pop_underflow rfl (bodyOf_pop r 0#32 u) hu hempty
    · exact exec_of_pop_underflow rfl (bodyOf_rts 0#32 u) hu hempty
    · exact exec_of_pop_underflow rfl (bodyOf_rti 0#32 u) hu hempty

/-- The same for the step of whatever the decoder answers. -/
theorem step_of_bodyStops {s u : State} {raw : RawInstr} {c : StopCause} (hrun : s.run = .running)
    (hfetch : fetch s = .ok raw) (hu : startBody s = .ok u) (h : bodyStops (decodeRaw raw) s u c) :
    step s = .next (u.stop c) := by
  cases hdec : decodeRaw raw with
  | some i =>
    rw [hdec] at h
    rw [step_of_decodeRaw_some hrun hfetch hdec, exec_of_bodyStops hu h]
  | none =>
    rw [hdec, bodyStops_none_iff] at h
    subst h
    rw [step_of_decodeRaw_none hrun hfetch hdec, execReservedOpcode_of_ok hu]

/-- A step that its timer step ends, when a read-style operand it has can be read. -/
theorem step_of_ended {s t : State} {raw : RawInstr} (hrun : s.run = .running)
    (hfetch : fetch s = .ok raw)
    (hread : ∀ i o, decodeRaw raw = some i → readOperand i = some o → ∃ v, resolve o s = .ok v)
    (ended : startBody s = .error (.ended t)) : step s = .next t := by
  cases hdec : decodeRaw raw with
  | some i =>
    rw [step_of_decodeRaw_some hrun hfetch hdec]
    exact exec_of_ended (fun o => hread i o hdec) ended
  | none =>
    rw [step_of_decodeRaw_none hrun hfetch hdec]
    exact runBody_of_ended _ ended

/-- Settles O59: each end of a step is a row of the table or leaves the processor running, and each row
is the end of a step. -/
theorem processorStopsExactlyByTheTable : Obligations.ProcessorStopsExactlyByTheTable := by
  intro s raw hrun hfetch
  refine ⟨fun t c hnext hstop => ?only, fun u c hu cause => ?byTheBody, fun hdue hsp hread => ?byTheEntry⟩
  case only =>
    cases stepEnds_of_step hfetch hnext with
    | beforeBody ended => exact .inl (stop_beforeBody hrun ended hstop)
    | completed hu kept =>
      obtain ⟨sameRun, -⟩ := kept
      rw [sameRun, startBody_keeps_run hu, hrun] at hstop
      cases hstop
    | stopped hu cause ht =>
      rw [ht, State.stop_run] at hstop
      cases hstop
      exact .inr ⟨_, hu, cause⟩
  case byTheBody => exact ⟨_, step_of_bodyStops hrun hfetch hu cause, u.stop_run c⟩
  case byTheEntry =>
    have ended : startBody s = .error (.ended (s.atExpiry.setStoppedAnyPc .stackOverflow).overflowReload) := by
      rw [startBody, startBodyWith, timerStep_of_overflow hdue hsp]
    exact ⟨_, step_of_ended hrun hfetch hread ended, rfl⟩

end Sys2Proof.Claims
end

section
/-! PROOFS. Decoding after encoding, R81 to R94: each field written by the encoder is read back, the six
format classes are round trips, and so are the 64 instructions. -/

namespace Sys2Proof

/-! ### The fields, written and read back -/

/-- The named codes and every reserved one come back from their mode byte (R85). -/
theorem Mode.ofByte_toByte {m : Mode} (h : m.wellFormed = true) : Mode.ofByte m.toByte = m := by
  cases m with
  | reserved code => exact Mode.ofByte_of_five_le (of_decide_eq_true h)
  | _ => rfl

/-- An operand is read back from its mode byte and its field. -/
theorem Operand.ofFields_toFields {o : Operand} (h : o.wellFormed = true) :
    (⟨Mode.ofByte o.mode.toByte, o.operand32⟩ : Operand) = o := by
  rw [Mode.ofByte_toByte h]

/-- On 8 bytes the decoder answers what the opcode map does. -/
theorem decode_bytes_eq_instr {raw : RawInstr} {i : Instr} :
    decode raw.bytes = .instr i ↔ decodeRaw raw = some i := by
  have fields : decode raw.bytes =
      ((decodeRaw raw).elim (.rejected (.reservedOpcode raw.opcode)) .instr : Decoded) := by
    rw [RawInstr.bytes, decode]
    cases decodeRaw raw <;> rfl
  rw [fields]
  cases decodeRaw raw <;> simp

/-! ### The format classes (R84) -/

section
variable {opcode : Byte}

theorem decodeRaw_encodeRM {build : Reg → Operand → Instr} (row : opcodeRow opcode = some (.rm build))
    (r : Reg) {o : Operand} (h : o.wellFormed = true) :
    decodeRaw (encodeRM opcode r o) = some (build r o) := by
  refine decodeRaw_eq_some.2 ⟨_, row, ?_⟩
  simp only [encodeRM, Row.apply, rawOf_operand32]
  exact congrArg₂ build r.ofField_toField (Operand.ofFields_toFields h)

theorem decodeRaw_encodeM {build : Operand → Instr} (row : opcodeRow opcode = some (.m build))
    {o : Operand} (h : o.wellFormed = true) : decodeRaw (encodeM opcode o) = some (build o) := by
  refine decodeRaw_eq_some.2 ⟨_, row, ?_⟩
  simp only [encodeM, Row.apply, rawOf_operand32]
  exact congrArg build (Operand.ofFields_toFields h)

theorem decodeRaw_encodeR {build : Reg → Instr} (row : opcodeRow opcode = some (.r build)) (r : Reg) :
    decodeRaw (encodeR opcode r) = some (build r) :=
  decodeRaw_eq_some.2 ⟨_, row, congrArg build r.ofField_toField⟩

theorem decodeRaw_encodeRT {build : Reg → Word → Instr} (row : opcodeRow opcode = some (.rt build))
    (r : Reg) (target : Word) : decodeRaw (encodeRT opcode r target) = some (build r target) :=
  decodeRaw_eq_some.2 ⟨_, row, congrArg₂ build r.ofField_toField (wordOfBytes_byteOf target)⟩

theorem decodeRaw_encodeT {build : Word → Instr} (row : opcodeRow opcode = some (.t build))
    (target : Word) : decodeRaw (encodeT opcode target) = some (build target) :=
  decodeRaw_eq_some.2 ⟨_, row, congrArg build (wordOfBytes_byteOf target)⟩

theorem decodeRaw_encodeN {i : Instr} (row : opcodeRow opcode = some (.n i)) :
    decodeRaw (encodeN opcode) = some i :=
  decodeRaw_eq_some.2 ⟨_, row, rfl⟩

end

/-- The 64 instructions, each by the class of its row (R87). -/
theorem decodeRaw_encodeRaw {i : Instr} (h : i.wellFormed = true) : decodeRaw (encodeRaw i) = some i := by
  cases i
  case load | store | add | sub | and | or | xor | shl | shr | mul | div | mod =>
    exact decodeRaw_encodeRM rfl _ h
  case not | push | pop => exact decodeRaw_encodeR rfl _
  case jnz | jz | jgt | jge | jlt | jle => exact decodeRaw_encodeRT rfl _ _
  case jmp | jsr => exact decodeRaw_encodeT rfl _
  case rts | sei | cli | rti | nop | halt => exact decodeRaw_encodeN rfl
  all_goals exact decodeRaw_encodeM rfl h

end Sys2Proof

namespace Sys2Proof.Claims

/-- Settles O1: the encoding is the 8 bytes of its fields, and the fields decode to the instruction. -/
theorem decodeOfEncodeIsTheInstruction : Obligations.DecodeOfEncodeIsTheInstruction :=
  fun _ h => decode_bytes_eq_instr.2 (decodeRaw_encodeRaw h)

/-- Settles O5: each of the nine words is the encoding of the instruction it stands for. -/
theorem manualWordsDecode : Obligations.ManualWordsDecode :=
  have decodes : ∀ i : Instr, i.wellFormed = true → decode (encode i) = .instr i :=
    decodeOfEncodeIsTheInstruction
  ⟨decodes (.lda ⟨.immediate, 0x12345678#32⟩) rfl, decodes (.load .x ⟨.register, 0#32⟩) rfl,
    decodes (.sta ⟨.direct, 0x5000#32⟩) rfl, decodes (.lda ⟨.regIndirect, 0x14#32⟩) rfl,
    decodes (.jnz .a 0x1020#32) rfl, decodes (.push .w) rfl, decodes (.shl .a ⟨.immediate, 4#32⟩) rfl,
    decodes (.wait ⟨.immediate, 1000#32⟩) rfl, decodes .halt rfl⟩

end Sys2Proof.Claims
end

section
/-! PROOFS. Reset, registers and memory, R21, R50 to R64 and R280 to R285: the bytes of a word, an access
with a meaning and one that is refused, and the fetch. -/

namespace Sys2Proof

/-- A bit of a word is a bit of its byte. -/
theorem getLsbD_eq_getLsbD_byteOf (v : Word) (i : Nat) :
    v.getLsbD i = (byteOf v (i / 8)).getLsbD (i % 8) := by
  have inByte : i % 8 < 8 := Nat.mod_lt i (by decide)
  rw [byteOf, BitVec.getLsbD_extractLsb', decide_eq_true inByte, Bool.true_and, Nat.div_add_mod]

/-- The lower three bytes of one word are the upper three of another when they are so byte by byte. -/
theorem extractLsb'_eq_of_bytes {w v : Word} (h : ∀ k < 3, byteOf w k = byteOf v (k + 1)) :
    w.extractLsb' 0 24 = v.extractLsb' 8 24 := by
  refine BitVec.eq_of_getLsbD_eq fun i hi => ?_
  have nextByte : (8 + i) / 8 = i / 8 + 1 ∧ (8 + i) % 8 = i % 8 := by omega
  obtain ⟨quotient, remainder⟩ := nextByte
  rw [BitVec.getLsbD_extractLsb', BitVec.getLsbD_extractLsb', Nat.zero_add, getLsbD_eq_getLsbD_byteOf w,
    getLsbD_eq_getLsbD_byteOf v, quotient, remainder, h (i / 8) (by omega)]

end Sys2Proof

namespace Sys2Proof.Machine

/-! ### Words and bytes of memory (R52, R53) -/

/-- The four bytes of a word read, by their place in memory. -/
theorem Memory.byteOf_readWord (m : Memory) (a : Nat) {k : Nat} (h : k < 4) :
    byteOf (m.readWord a) k = m.read (a + k) := by
  obtain ⟨h0, h1, h2, h3⟩ := byteOf_wordOfBytes (m.read a) (m.read (a + 1)) (m.read (a + 2)) (m.read (a + 3))
  match k, h with
  | 0, _ => exact h0
  | 1, _ => exact h1
  | 2, _ => exact h2
  | 3, _ => exact h3

/-- The bytes of a fetched word, by their place in memory (R54, R81). -/
theorem Memory.getElem?_bytes_readRaw (m : Memory) (a : Nat) {k : Nat} (h : k < 8) :
    (m.readRaw a).bytes[k]? = some (m.read (a + k)) := by
  match k, h with
  | 0, _ | 1, _ | 2, _ | 3, _ | 4, _ | 5, _ | 6, _ | 7, _ => rfl

/-- The fetched bytes are the bytes from PC on, one after the other. -/
theorem Memory.bytes_readRaw (m : Memory) (a : Nat) :
    (m.readRaw a).bytes = (List.range 8).map fun k => m.read (a + k) := rfl

/-! ### Accesses with a meaning and accesses without one (R51, R58) -/

theorem memRead_of_backs {addr : Word} {s : State} (h : s.backs addr 4 = true) :
    memRead addr s = .ok (s.mem.readWord addr.toNat) :=
  memRead_eq_ok.2 ⟨h, rfl⟩

theorem memWrite_of_backs {addr : Word} {s : State} (v : Word) (h : s.backs addr 4 = true) :
    memWrite addr v s = .ok (s.setMem (s.mem.writeWord addr.toNat v)) :=
  memWrite_eq_ok.2 ⟨h, rfl⟩

/-- What the refusal of an access says of it: it runs past the top, or a byte of it is not installed. -/
theorem State.accessRefusal_cases {s : State} {addr : Word} {n : Nat} (h : s.backs addr n = false) :
    accessRefusal addr n = .pastTopOfMemory addr ∧ 2 ^ 32 < addr.toNat + n ∨
      accessRefusal addr n = .notInstalled addr ∧ addr.toNat + n ≤ 2 ^ 32 ∧
        ∃ k < n, s.isInstalled (addr.toNat + k) = false := by
  unfold accessRefusal
  split
  · next within =>
    refine .inr ⟨rfl, within, ?_⟩
    by_contra allInstalled
    push Not at allInstalled
    have backed : s.backs addr n = true :=
      (s.backs_iff addr n).2 ⟨within, fun k hk => Bool.ne_false_iff.1 (allInstalled k hk)⟩
    exact absurd (backed.symm.trans h) (by decide)
  · next past => exact .inl ⟨rfl, by omega⟩

/-- An access past the top has no meaning, and its refusal says so. -/
theorem State.refused_of_past_top (s : State) {addr : Word} {n : Nat} (h : 2 ^ 32 < addr.toNat + n) :
    s.backs addr n = false ∧ accessRefusal addr n = .pastTopOfMemory addr := by
  refine ⟨Bool.eq_false_iff.2 fun backed => ?_, if_neg (by omega)⟩
  obtain ⟨within, -⟩ := (s.backs_iff addr n).1 backed
  omega

/-- An access below the top that touches a byte without memory has no meaning, and its refusal says so. -/
theorem State.refused_of_not_installed {s : State} {addr : Word} {n : Nat} (within : addr.toNat + n ≤ 2 ^ 32)
    (h : ∃ k < n, s.isInstalled (addr.toNat + k) = false) :
    s.backs addr n = false ∧ accessRefusal addr n = .notInstalled addr := by
  refine ⟨Bool.eq_false_iff.2 fun backed => ?_, if_pos within⟩
  obtain ⟨-, installed⟩ := (s.backs_iff addr n).1 backed
  obtain ⟨k, hk, missing⟩ := h
  exact absurd ((installed k hk).symm.trans missing) (by decide)

/-- A data access without a meaning is refused, a read and a write alike. -/
theorem access_of_refused {s : State} {addr : Word} {r : Refusal} (v : Word)
    (h : s.backs addr 4 = false ∧ accessRefusal addr 4 = r) :
    memRead addr s = .error (.refused r) ∧ memWrite addr v s = .error (.refused r) := by
  obtain ⟨unbacked, rfl⟩ := h
  exact ⟨memRead_eq_error.2 ⟨unbacked, rfl⟩, memWrite_eq_error.2 ⟨unbacked, rfl⟩⟩

/-- A running processor whose fetch has no meaning is refused the step. -/
theorem step_of_refused_fetch {s : State} {r : Refusal} (hrun : s.run = .running)
    (h : s.backs s.pc 8 = false ∧ accessRefusal s.pc 8 = r) : step s = .refused r := by
  obtain ⟨unbacked, rfl⟩ := h
  have fails : fetch s = .error (.refused (accessRefusal s.pc 8)) := fetch_eq_error.2 ⟨unbacked, rfl⟩
  simp only [step, hrun, fails, finish_refused]

theorem step_of_stopped {s : State} {c : StopCause} (h : s.run = .stopped c) :
    step s = .fault (.processorStopped c) := by
  simp only [step, h]

/-! ### The launch state (R36, R280) -/

/-- The launch state has a stack pointer in its bounds, and the memory it is given. -/
theorem State.launch_inv (p : ResetParams) (installed : List Region) {m : Memory} (h : m.wf = true) :
    (State.launch p installed m).Inv := by
  have bounds : Config.stackStart.toNat % 4 = 0 ∧ 0x2000 ≤ Config.stackStart.toNat ∧
      Config.stackStart.toNat ≤ 0x9F000 := by decide
  exact ⟨h, bounds⟩

end Sys2Proof.Machine

namespace Sys2Proof.Claims

open Sys2Proof.Machine

/-! ### Reset -/

/-- Settles O10: reset puts the launch values there, and the launch registers are zero. -/
theorem resetClearsTheRegisters : Obligations.ResetClearsTheRegisters :=
  fun _ _ => ⟨Regs.get_zero, rfl, rfl⟩

/-- Settles O11: the launch state of the default parameters; every address is in the one region. -/
theorem resetStateHoldsTheChosenDefaults : Obligations.ResetStateHoldsTheChosenDefaults := by
  refine ⟨rfl, rfl, rfl, rfl, rfl, rfl, rfl, rfl, fun _ => rfl, fun a ha => ?installed⟩
  case installed =>
    have inWholeSpace : Region.wholeSpace.contains a = true :=
      Bool.and_eq_true_iff.2 ⟨decide_eq_true a.zero_le, decide_eq_true ((Nat.zero_add (2 ^ 32)).symm ▸ ha)⟩
    exact List.any_eq_true.2 ⟨Region.wholeSpace, List.mem_singleton.2 rfl, inWholeSpace⟩

/-- Settles O9: the step of a stopped processor is the fault, and the reset event is a launch. -/
theorem stoppedProcessorTakesNoStep : Obligations.StoppedProcessorTakesNoStep :=
  fun _ _ stopped => ⟨step_of_stopped stopped, fun _ => ⟨rfl, rfl⟩⟩

/-- Settles O56: the launch state meets the invariant, and the reset state is the one with empty memory. -/
theorem launchStatesMeetTheInvariant : Obligations.LaunchStatesMeetTheInvariant :=
  ⟨State.launch_inv _ _ rfl, fun p installed _ => State.launch_inv p installed⟩

/-! ### Registers and memory -/

/-- Settles O12: a read after a write gives the value for the written register alone. -/
theorem eachRegisterHoldsWhatWasWritten : Obligations.EachRegisterHoldsWhatWasWritten :=
  fun s r r' v => ⟨(s.getReg_setReg r r v).trans (if_pos rfl),
    fun other => (s.getReg_setReg r r' v).trans (if_neg other)⟩

/-- Settles O13: the word read is made of the four bytes, and gives each of them back. -/
theorem wordReadIsLittleEndian : Obligations.WordReadIsLittleEndian :=
  fun s addr backed =>
    have bytes {k : Nat} : k < 4 → byteOf (s.mem.readWord addr.toNat) k = s.readByte (addr.toNat + k) :=
      s.mem.byteOf_readWord addr.toNat
    ⟨_, memRead_of_backs backed, bytes (k := 0) (by decide), bytes (k := 1) (by decide),
      bytes (k := 2) (by decide), bytes (k := 3) (by decide)⟩

/-- Settles O14: a byte inside the write is a byte of the value, a byte outside it is as before. -/
theorem wordWriteStoresFourBytes : Obligations.WordWriteStoresFourBytes :=
  fun s addr v backed =>
    have bytes {k : Nat} : k < 4 →
        (s.mem.writeWord addr.toNat v).read (addr.toNat + k) = byteOf v k :=
      s.mem.read_writeWord_inside addr.toNat v
    ⟨_, memWrite_of_backs v backed, bytes (k := 0) (by decide), bytes (k := 1) (by decide),
      bytes (k := 2) (by decide), bytes (k := 3) (by decide),
      fun _ outside => s.mem.read_writeWord_outside addr.toNat v outside⟩

/-- Settles O8: each way to have no meaning has its refusal. -/
theorem dataAccessOutsideMemoryIsRefused : Obligations.DataAccessOutsideMemoryIsRefused :=
  fun s _ v => ⟨fun past => access_of_refused v (s.refused_of_past_top past),
    fun within missing => access_of_refused v (State.refused_of_not_installed within missing)⟩

/-! ### Fetch -/

/-- Settles O7: the same two ways for the 8 bytes at PC. -/
theorem fetchOutsideMemoryIsRefused : Obligations.FetchOutsideMemoryIsRefused :=
  fun s running => ⟨fun past => step_of_refused_fetch running (s.refused_of_past_top past),
    fun within missing => step_of_refused_fetch running (State.refused_of_not_installed within missing)⟩

/-- Settles O6: the fetch answers the bytes at PC, which decode to the instruction. -/
theorem stepRunsTheDecodedInstruction : Obligations.StepRunsTheDecodedInstruction := by
  intro s i running backed decodes
  have fetched : fetch s = .ok (s.mem.readRaw s.pc.toNat) := fetch_eq_ok.2 ⟨backed, rfl⟩
  have decoded : decodeRaw (s.mem.readRaw s.pc.toNat) = some i :=
    decode_bytes_eq_instr.1 (s.mem.bytes_readRaw s.pc.toNat ▸ decodes)
  exact step_of_decodeRaw_some running fetched decoded

/-- Settles O16: the fetch reads the memory the store has left, byte by byte. -/
theorem storesAreSeenByTheNextFetch : Obligations.StoresAreSeenByTheNextFetch := by
  intro s addr v backed fetchBacked
  refine ⟨_, _, memWrite_of_backs v backed, fetch_eq_ok.2 ⟨fetchBacked, rfl⟩, fun k hk => ?_⟩
  rw [Memory.getElem?_bytes_readRaw _ _ hk]
  refine ⟨fun j hj overlap => congrArg some ?inside, fun outside => congrArg some ?outside⟩
  case inside =>
    calc (s.mem.writeWord addr.toNat v).read (s.pc.toNat + k)
        _ = (s.mem.writeWord addr.toNat v).read (addr.toNat + j) := by rw [overlap]
        _ = byteOf v j := s.mem.read_writeWord_inside addr.toNat v hj
  case outside => exact s.mem.read_writeWord_outside addr.toNat v outside

/-- Settles O15: the three upper bytes of the written word are the three lower bytes of the word read one
byte further, and the fourth byte of that word is outside the write. -/
theorem overlappingWordsShareThreeBytes : Obligations.OverlappingWordsShareThreeBytes := by
  intro s addr v backed backedNext
  refine ⟨_, _, memWrite_of_backs v backed, memRead_of_backs backedNext, ?shared, ?above⟩
  all_goals
    have within : addr.toNat + 4 ≤ 2 ^ 32 := ((s.backs_iff addr 4).1 backed).1
    have oneFurther : (addr + 1#32).toNat = addr.toNat + 1 := by bv_omega
    rw [State.setMem_mem, oneFurther]
  case shared =>
    refine extractLsb'_eq_of_bytes fun k hk => ?_
    calc byteOf ((s.mem.writeWord addr.toNat v).readWord (addr.toNat + 1)) k
        _ = (s.mem.writeWord addr.toNat v).read (addr.toNat + 1 + k) := Memory.byteOf_readWord _ _ (by omega)
        _ = (s.mem.writeWord addr.toNat v).read (addr.toNat + (k + 1)) := by rw [Nat.add_assoc, Nat.add_comm 1]
        _ = byteOf v (k + 1) := s.mem.read_writeWord_inside addr.toNat v (by omega)
  case above =>
    calc byteOf ((s.mem.writeWord addr.toNat v).readWord (addr.toNat + 1)) 3
        _ = (s.mem.writeWord addr.toNat v).read (addr.toNat + 4) := Memory.byteOf_readWord _ _ (by decide)
        _ = s.readByte (addr.toNat + 4) := s.mem.read_writeWord_outside addr.toNat v (.inr le_rfl)

end Sys2Proof.Claims
end

section
/-! PROOFS. More instructions, R96, R120, R185, R186, R196, R197, R212, R213, R222 and R223: the dedicated
forms against the general ones, the shifts bit by bit, INC and DEC, a subroutine call with its return, RTI
and WAIT. -/

namespace Sys2Proof.Machine

/-! ### Dedicated forms (R96) -/

/-- Instructions with the same operand and the same body do the same in every state. -/
theorem exec_congr {i j : Instr} (ho : readOperand i = readOperand j) (hbody : ∀ v, bodyOf i v = bodyOf j v)
    (s : State) : exec i s = exec j s := by
  have sameBody : bodyOf i = bodyOf j := funext hbody
  rw [exec_eq, exec_eq, ho, sameBody]

/-- Without a read-style operand one body is to be compared. -/
theorem exec_congr_of_no_read {i j : Instr} (hi : readOperand i = none) (hj : readOperand j = none)
    (hbody : bodyOf i 0#32 = bodyOf j 0#32) (s : State) : exec i s = exec j s := by
  rw [exec_eq, exec_eq, hi, hj]
  exact congrArg (runBody s) hbody

/-! ### Shifts (R196, R197) -/

/-- The whole count shifts: from 32 on no bit is left, as for a shift of bit vectors. -/
theorem shiftLeft_eq (a count : Word) : shiftLeft a count = a <<< count.toNat := by
  unfold shiftLeft
  split
  · apply BitVec.eq_of_toNat_eq
    rw [BitVec.toNat_ofNat, BitVec.toNat_shiftLeft, Nat.shiftLeft_eq]
  · next h => exact (BitVec.shiftLeft_eq_zero (by omega)).symm

theorem shiftRight_eq (a count : Word) : shiftRight a count = a >>> count.toNat := by
  unfold shiftRight
  split
  · apply BitVec.eq_of_toNat_eq
    rw [← Nat.shiftRight_eq_div_pow, ← BitVec.toNat_ushiftRight, BitVec.ofNat_toNat, BitVec.setWidth_eq]
  · next h => exact (BitVec.ushiftRight_eq_zero (by omega)).symm

theorem getLsbD_shiftLeft_whole (a count : Word) {k : Nat} (h : k < 32) :
    (shiftLeft a count).getLsbD k = (decide (count.toNat ≤ k) && a.getLsbD (k - count.toNat)) := by
  have notBelow : (!decide (k < count.toNat)) = decide (count.toNat ≤ k) := by
    simp only [← decide_not, Nat.not_lt]
  rw [shiftLeft_eq, BitVec.getLsbD_shiftLeft, decide_eq_true h, Bool.true_and, notBelow]

theorem getLsbD_shiftRight_whole (a count : Word) (k : Nat) :
    (shiftRight a count).getLsbD k = a.getLsbD (k + count.toNat) := by
  rw [shiftRight_eq, BitVec.getLsbD_ushiftRight, Nat.add_comm]

/-! ### INC and DEC (R120, R185, R186) -/

section
variable {f : Word → Word} {i : Instr} {o : Operand} {s u : State}

/-- In register mode the selected register is changed, in the state the body finds. -/
theorem exec_of_incDecBody_register (ho : readOperand i = none) (hbody : bodyOf i 0#32 = incDecBody f o)
    (hu : startBody s = .ok u) (hmode : o.mode = .register) {r : Reg} (hr : r = Reg.ofOperand o.operand32) :
    exec i s = .next { u with regs := u.regs.set r (f (u.getReg r)), pc := u.pc + 8#32 } := by
  subst hr
  exact exec_of_body_ok ho hu ((congrFun hbody u).trans (incDecBody_eq_ok.2 (.inl ⟨hmode, rfl⟩)))

/-- In every other mode, the reserved ones among them (D22), the word at the store-style target is. -/
theorem exec_of_incDecBody_memory (ho : readOperand i = none) (hbody : bodyOf i 0#32 = incDecBody f o)
    (hu : startBody s = .ok u) (hmode : o.mode ≠ .register) {a w : Word} (ha : storeTarget o u = .ok a)
    (hw : memRead a u = .ok w) :
    exec i s = .next { u with mem := u.mem.writeWord a.toNat (f w), pc := u.pc + 8#32 } := by
  obtain ⟨backed, rfl⟩ := memRead_eq_ok.1 hw
  exact exec_of_body_ok ho hu
    ((congrFun hbody u).trans (incDecBody_eq_ok.2 (.inr ⟨hmode, a, ha, backed, rfl⟩)))

end

theorem bodyOf_inc (o : Operand) (v : Word) : bodyOf (.inc o) v = incDecBody (fun w => w + 1#32) o := rfl

theorem bodyOf_dec (o : Operand) (v : Word) : bodyOf (.dec o) v = incDecBody (fun w => w - 1#32) o := rfl

/-! ### WAIT (R223) -/

theorem bodyOf_wait (o : Operand) (v : Word) (u : State) : bodyOf (.wait o) v u = .ok u.advance := rfl

end Sys2Proof.Machine

namespace Sys2Proof.Claims

open Sys2Proof.Machine

/-- Settles O34: a dedicated form has the operand and the body of its general form. -/
theorem dedicatedFormsEqualTheGeneralForms : Obligations.DedicatedFormsEqualTheGeneralForms := by
  intro p hp o s
  obtain hp | hp := List.mem_append.1 hp <;> obtain ⟨q, hq, rfl⟩ := List.mem_map.1 hp
  case inl =>
    have load : IsDedicatedLoad q :=
      (List.mem_append.1 hq).elim isDedicatedLoad_of_mem_loadsA isDedicatedLoad_of_mem_loadsB
    exact exec_congr (load.operand o) (load.body o) s
  case inr =>
    have store : IsDedicatedStore q :=
      (List.mem_append.1 hq).elim isDedicatedStore_of_mem_storesA isDedicatedStore_of_mem_storesB
    exact exec_congr_of_no_read (j := .store q.2.2 o) (store.noRead o) rfl (store.body o) s

/-- Settles O39: the shifts have rows of class `RM` and combine by the shift of the whole count. -/
theorem shiftsAreLogicalByTheWholeCount : Obligations.ShiftsAreLogicalByTheWholeCount := by
  refine ⟨decodesRM_of_opcodeRow rfl, decodesRM_of_opcodeRow rfl, fun r o s u v hv hu => ⟨?shl, ?shr⟩⟩
  case shl =>
    exact ⟨shiftLeft (u.getReg r) v, fun k => getLsbD_shiftLeft_whole _ v,
      exec_of_combineBody rfl rfl hv hu⟩
  case shr =>
    exact ⟨shiftRight (u.getReg r) v, fun k _ => getLsbD_shiftRight_whole _ v k,
      exec_of_combineBody rfl rfl hv hu⟩

/-- Settles O40: INC and DEC have rows of class `M` and the body that changes their target. -/
theorem incDecChangeTheirTarget : Obligations.IncDecChangeTheirTarget := by
  refine ⟨decodesM_of_opcodeRow rfl, decodesM_of_opcodeRow rfl, fun o s u hu => ⟨?register, ?memory⟩⟩
  case register =>
    exact fun hmode r hr => ⟨exec_of_incDecBody_register rfl (bodyOf_inc o 0#32) hu hmode hr,
      exec_of_incDecBody_register rfl (bodyOf_dec o 0#32) hu hmode hr⟩
  case memory =>
    exact fun hmode a w ha hw => ⟨exec_of_incDecBody_memory rfl (bodyOf_inc o 0#32) hu hmode ha hw,
      exec_of_incDecBody_memory rfl (bodyOf_dec o 0#32) hu hmode ha hw⟩

/-- RTS with the timer disabled and a word on the stack (R213). -/
theorem exec_rts_of_disabled {s : State} {v : Word} (disabled : s.tEn = false)
    (filled : s.sp.toNat < 0x9F000) (hv : memRead s.sp s = .ok v) :
    exec .rts s = .next { s with sp := s.sp + 4#32, pc := v } := by
  obtain ⟨-, rts⟩ := rtsPopsThePc
  obtain ⟨pops, -⟩ := rts s s (startBody_of_disabled disabled)
  exact pops v filled hv

/-- Settles O47: RTS runs in the state JSR has left and reads the word JSR has written. -/
theorem jsrThenRtsComesBack : Obligations.JsrThenRtsComesBack := by
  intro target s disabled hinv room backed
  obtain ⟨-, -, below⟩ := hinv
  obtain ⟨-, jsr⟩ := jsrPushesTheReturnAddress
  obtain ⟨call, -⟩ := jsr target s s (startBody_of_disabled disabled)
  refine ⟨_, call room backed, rfl, rfl,
    (exec_rts_of_disabled (v := s.pc + 8#32) ?disabled ?filled ?readBack).trans ?restored⟩
  case disabled => exact disabled
  case filled => exact show (s.sp - 4#32).toNat < 0x9F000 by bv_omega
  case readBack => exact memRead_eq_ok.2 ⟨backed, (Memory.readWord_writeWord _ _ _).symm⟩
  case restored => simp only [BitVec.sub_add_cancel]

/-- Settles O49: RTI has a row of class `N`, and its body pops, loads PC and clears the latch. -/
theorem rtiReturnsFromTheInterrupt : Obligations.RtiReturnsFromTheInterrupt := by
  refine ⟨decodesN_of_opcodeRow rfl, fun s u hu => ⟨fun v => ?filled, ?underflow⟩⟩
  case filled => exact exec_of_pop rfl (bodyOf_rti 0#32 u) hu
  case underflow =>
    exact fun hempty => ⟨_, _, exec_of_pop_underflow rfl (bodyOf_rti 0#32 u) hu hempty⟩

/-- Settles O50: WAIT has a row of class `M`, and its body only advances. -/
theorem waitOnlyAdvances : Obligations.WaitOnlyAdvances := by
  refine ⟨decodesM_of_opcodeRow rfl, fun o s u v hv hu => ?_⟩
  calc exec (.wait o) s
      _ = finish (bodyOf (.wait o) v u) := exec_of_resolve rfl hv hu
      _ = .next u.advance := by rw [bodyOf_wait, finish_ok]

end Sys2Proof.Claims
end

section
/-! PROOFS. What a step can leave, R60, R110 to R112, R215, R250 to R256: the state after the timer step, the
state after a body, and from the two the frames, the invariant and the rules of the whole machine. -/

namespace Sys2Proof.Claims

open Sys2Proof.Machine

/-! ### The state the timer step leaves (R250) -/

/-- The states a timer step of `s` can leave, for the body or as the end of the step: the timer counted, an
interrupt entered, or the processor stopped by an entry without room on the stack. -/
inductive TimerLeaves (s : State) : State → Prop where
  | counted (notDue : s.interruptDue = false) : TimerLeaves s s.afterTimer
  | entered (due : s.interruptDue = true) (room : 0x2000 < s.sp.toNat)
      (backed : s.backs (s.sp - 4#32) 4 = true) : TimerLeaves s (afterEntry s)
  | overflowed (due : s.interruptDue = true) (full : s.sp.toNat ≤ 0x2000) :
      TimerLeaves s (s.atExpiry.setStoppedAnyPc .stackOverflow).overflowReload

/-- A timer step that answers has counted or has entered a due interrupt. -/
theorem timerStep_eq_ok {s u : State} {b : Bool} (h : timerStep s = .ok (u, b)) :
    b = false ∧ s.interruptDue = false ∧ u = s.afterTimer ∨
      b = true ∧ s.interruptDue = true ∧ 0x2000 < s.sp.toNat ∧ s.backs (s.sp - 4#32) 4 = true ∧
        u = afterEntry s := by
  cases hdue : s.interruptDue with
  | false =>
    rw [timerStep_of_not_due hdue] at h
    cases h
    exact .inl ⟨rfl, rfl, rfl⟩
  | true =>
    cases hentry : interruptEntry s.atExpiry with
    | error e =>
      rw [timerStep_of_due hdue, hentry] at h
      cases e <;> cases h
    | ok e =>
      obtain ⟨s1, hpush, vector, -⟩ := interruptEntry_eq_ok.1 hentry
      obtain ⟨room, backed, rfl⟩ := pushIrq_eq_ok.1 hpush
      rw [timerStep_eq_afterEntry hdue room backed vector] at h
      cases h
      exact .inr ⟨rfl, rfl, room, backed, rfl⟩

/-- A timer step that ends the step is an entry without room on the stack. -/
theorem timerStep_eq_ended {s t : State} (h : timerStep s = .error (.ended t)) :
    s.interruptDue = true ∧ s.sp.toNat ≤ 0x2000 ∧
      t = (s.atExpiry.setStoppedAnyPc .stackOverflow).overflowReload := by
  have ended : startBodyWith .continues s = .error (.ended t) := by rw [startBodyWith, h]
  obtain ⟨hdue, ⟨hcontinues, -⟩ | ⟨full, ht⟩ | ⟨_, -, ht⟩⟩ := startBodyWith_eq_error ended
  · cases hcontinues
  · cases ht
    exact ⟨hdue, full, rfl⟩
  · cases ht

theorem timerLeaves_of_timerStep_ok {s u : State} {b : Bool} (h : timerStep s = .ok (u, b)) :
    TimerLeaves s u := by
  rcases timerStep_eq_ok h with ⟨-, notDue, rfl⟩ | ⟨-, due, room, backed, rfl⟩
  · exact .counted notDue
  · exact .entered due room backed

theorem timerLeaves_of_timerStep_ended {s t : State} (h : timerStep s = .error (.ended t)) :
    TimerLeaves s t := by
  obtain ⟨due, full, rfl⟩ := timerStep_eq_ended h
  exact .overflowed due full

theorem timerLeaves_of_startBody_ok {s u : State} (h : startBody s = .ok u) : TimerLeaves s u := by
  obtain ⟨b, answers⟩ := timerStep_of_startBody_ok h
  exact timerLeaves_of_timerStep_ok answers

theorem timerLeaves_of_startBody_ended {s t : State} (h : startBody s = .error (.ended t)) :
    TimerLeaves s t := by
  rcases timerStep_of_startBody_ended h with answers | ended
  · exact timerLeaves_of_timerStep_ok answers
  · exact timerLeaves_of_timerStep_ended ended

section
variable {s u : State}

/-- The timer step changes neither its configuration nor `Installed` (D12). -/
theorem TimerLeaves.keeps_configuration (h : TimerLeaves s u) :
    u.tEn = s.tEn ∧ u.tPeriod = s.tPeriod ∧ u.installed = s.installed := by
  cases h <;> exact ⟨rfl, rfl, rfl⟩

/-- The timer step leaves `ie` alone (D18). -/
theorem TimerLeaves.keeps_ie (h : TimerLeaves s u) : u.ie = s.ie := by
  cases h <;> rfl

/-- The timer step sets `inirq` by an entry and else leaves it alone (D17). -/
theorem TimerLeaves.inirq (h : TimerLeaves s u) :
    u.inirq = s.inirq ∨ s.interruptDue = true ∧ u.inirq = true := by
  cases h with
  | entered due => exact .inr ⟨due, rfl⟩
  | _ => exact .inl rfl

/-- A push inside the stack keeps the stack invariant (R215). -/
theorem stackInv_of_push {t : State} (hs : s.stackInv) (room : 0x2000 < s.sp.toNat)
    (ht : t.sp = s.sp - 4#32) : t.stackInv := by
  obtain ⟨aligned, -, upper⟩ := hs
  have moved : t.sp.toNat = s.sp.toNat - 4 := by rw [ht]; bv_omega
  exact ⟨by omega, by omega, by omega⟩

/-- A pop inside the stack keeps the stack invariant (R215). -/
theorem stackInv_of_pop {t : State} (hs : s.stackInv) (filled : s.sp.toNat < 0x9F000)
    (ht : t.sp = s.sp + 4#32) : t.stackInv := by
  obtain ⟨aligned, lower, -⟩ := hs
  have moved : t.sp.toNat = s.sp.toNat + 4 := by rw [ht]; bv_omega
  exact ⟨by omega, by omega, by omega⟩

/-- A word write to installed memory keeps the canonical form. -/
theorem writeWord_wf_of_backs {a : Word} (v : Word) (h : s.mem.wf = true) (backed : s.backs a 4 = true) :
    (s.mem.writeWord a.toNat v).wf = true :=
  have ⟨within, _⟩ := (s.backs_iff a 4).1 backed
  Memory.writeWord_wf a.toNat v h within

theorem TimerLeaves.keeps_inv (h : TimerLeaves s u) (hs : s.Inv) : u.Inv := by
  obtain ⟨canonical, stack⟩ := hs
  cases h with
  | counted | overflowed => exact ⟨canonical, stack⟩
  | entered _ room backed =>
    exact ⟨writeWord_wf_of_backs s.pc canonical backed, stackInv_of_push stack room rfl⟩

end

/-! ### The state a body leaves (R112) -/

/-- The states the body of `i` can leave when it runs in `u`: a stop, one register written, PC alone moved, a
latch, one word stored, a word pushed, or a word popped into a register or PC. -/
inductive BodyLeaves (u : State) : Instr → State → Prop where
  | stops {i : Instr} (c : StopCause) : BodyLeaves u i (u.stop c)
  | writesReg {i : Instr} {r : Reg} (dest : destination i = some r) (v : Word) :
      BodyLeaves u i (u.setReg r v).advance
  | movesPc {i : Instr} (pc : Word) : BodyLeaves u i (u.setPc pc)
  | enables : BodyLeaves u .sei (u.setIe true).advance
  | disables : BodyLeaves u .cli (u.setIe false).advance
  | stores {i : Instr} {a : Word} (address : storeAddress i u = some (.ok a))
      (backed : u.backs a 4 = true) (v : Word) :
      BodyLeaves u i (u.setMem (u.mem.writeWord a.toNat v)).advance
  | pushes {i : Instr} (moves : movesSp i) (address : storeAddress i u = some (.ok (u.sp - 4#32)))
      (room : 0x2004 ≤ u.sp.toNat) (backed : u.backs (u.sp - 4#32) 4 = true) (v pc : Word) :
      BodyLeaves u i { u with sp := u.sp - 4#32, mem := u.mem.writeWord (u.sp - 4#32).toNat v, pc := pc }
  | popsReg {r : Reg} (filled : u.sp.toNat < 0x9F000) (v : Word) :
      BodyLeaves u (.pop r) ((u.setSp (u.sp + 4#32)).setReg r v).advance
  | returns (filled : u.sp.toNat < 0x9F000) (v : Word) :
      BodyLeaves u .rts ((u.setSp (u.sp + 4#32)).setPc v)
  | returnsFromInterrupt (filled : u.sp.toNat < 0x9F000) (v : Word) :
      BodyLeaves u .rti (((u.setSp (u.sp + 4#32)).setPc v).setInirq false)

/-- A body answers `t`, as a completed step or as the end of one. -/
def bodyAnswers (x : Except Abort State) (t : State) : Prop := x = .ok t ∨ x = .error (.ended t)

section
variable {i : Instr} {u t : State}

theorem eq_of_bodyAnswers_ok {t' : State} (h : bodyAnswers (.ok t') t) : t' = t := by
  rcases h with h | h <;> cases h
  rfl

theorem branchBody_leaves {test : Word → Bool} {r : Reg} {target : Word}
    (h : bodyAnswers (branchBody test r target u) t) : BodyLeaves u i t := by
  rw [branchBody_eq] at h
  exact eq_of_bodyAnswers_ok h ▸ .movesPc _

theorem divideBody_leaves {f : Word → Word → Word} {r : Reg} {v : Word} (dest : destination i = some r)
    (h : bodyAnswers (divideBody f r v u) t) : BodyLeaves u i t := by
  by_cases hv : v = 0#32
  · subst hv
    rw [divideBody_of_zero] at h
    rcases h with h | h <;> cases h
    exact .stops .divideByZero
  · rw [divideBody_of_ne f r u hv] at h
    exact eq_of_bodyAnswers_ok h ▸ .writesReg dest _

theorem storeBody_leaves {r : Reg} {o : Operand} (address : storeAddress i u = some (storeTarget o u))
    (h : bodyAnswers (storeBody r o u) t) : BodyLeaves u i t := by
  rcases h with h | h
  · obtain ⟨a, ha, backed, rfl⟩ := storeBody_eq_ok.1 h
    exact .stores (address.trans (congrArg some ha)) backed _
  · obtain ⟨_, -, he⟩ := storeBody_eq_error h
    cases he

theorem incDecBody_leaves {f : Word → Word} {o : Operand}
    (dest : o.mode = .register → destination i = some (Reg.ofOperand o.operand32))
    (address : o.mode ≠ .register → storeAddress i u = some (storeTarget o u))
    (h : bodyAnswers (incDecBody f o u) t) : BodyLeaves u i t := by
  rcases h with h | h
  · rcases incDecBody_eq_ok.1 h with ⟨hmode, rfl⟩ | ⟨hmode, a, ha, backed, rfl⟩
    · exact .writesReg (dest hmode) _
    · exact .stores ((address hmode).trans (congrArg some ha)) backed _
  · obtain ⟨_, -, he⟩ := incDecBody_eq_error h
    cases he

theorem push_then_leaves {w : Word} {g : State → State} (hg : ∀ t, ∃ pc, g t = t.setPc pc) (moves : movesSp i)
    (address : storeAddress i u = some (.ok (u.sp - 4#32)))
    (h : bodyAnswers (push w u >>= fun t => .ok (g t)) t) : BodyLeaves u i t := by
  rcases push_then_eq_next h with ⟨-, rfl⟩ | ⟨room, backed, rfl⟩
  · exact .stops .stackOverflow
  · obtain ⟨pc, hpc⟩ := hg _
    rw [hpc]
    exact .pushes moves address room backed w pc

theorem pop_then_leaves {g : Word × State → State}
    (hg : u.sp.toNat < 0x9F000 → ∀ v, BodyLeaves u i (g (v, u.setSp (u.sp + 4#32))))
    (h : bodyAnswers (pop u >>= fun p => .ok (g p)) t) : BodyLeaves u i t := by
  rcases pop_then_eq_next h with ⟨-, rfl⟩ | ⟨filled, -, rfl⟩
  · exact .stops .stackUnderflow
  · exact hg filled _

/-- What the body of each of the 64 instructions can leave. -/
theorem bodyOf_leaves {v : Word} (h : bodyAnswers (bodyOf i v u) t) : BodyLeaves u i t := by
  cases i
  case store | sta | stx | sty | stz | stb | stc | std | ste | stf | stg | stu | stv | stw | sth | sts
      | stt => exact storeBody_leaves rfl h
  case jnz | jz | jgt | jge | jlt | jle => exact branchBody_leaves h
  case div | mod => exact divideBody_leaves rfl h
  case inc | dec => exact incDecBody_leaves (fun hm => if_pos hm) (fun hm => if_neg hm) h
  case push => exact push_then_leaves (g := State.advance) (fun _ => ⟨_, rfl⟩) trivial rfl h
  case jsr target => exact push_then_leaves (g := (State.setPc · target)) (fun _ => ⟨_, rfl⟩) trivial rfl h
  case pop r => exact pop_then_leaves .popsReg h
  case rts => exact pop_then_leaves .returns h
  case rti => exact pop_then_leaves .returnsFromInterrupt h
  case sei => exact eq_of_bodyAnswers_ok h ▸ .enables
  case cli => exact eq_of_bodyAnswers_ok h ▸ .disables
  case jmp | wait | nop => exact eq_of_bodyAnswers_ok h ▸ .movesPc _
  case halt =>
    rcases h with h | h <;> cases h
    exact .stops .halt
  all_goals exact eq_of_bodyAnswers_ok h ▸ .writesReg rfl _

/-- An instruction ends before its body, or with it. -/
theorem exec_leaves {s : State} (h : exec i s = .next t) :
    startBody s = .error (.ended t) ∨ ∃ u, startBody s = .ok u ∧ BodyLeaves u i t := by
  obtain ⟨-, ended | ⟨v, u, -, hu, hbody⟩⟩ := exec_eq_next h
  · exact .inl ended
  · exact .inr ⟨u, hu, bodyOf_leaves hbody⟩

end

/-! ### The frame of a body -/

/-- A form that stores has no destination register, and is none of the latch instructions. -/
theorem not_dest_of_storeAddress {i : Instr} {u : State} {x : Except Abort Word}
    (h : storeAddress i u = some x) : destination i = none ∧ i ≠ .sei ∧ i ≠ .cli ∧ i ≠ .rti := by
  cases i
  case inc o | dec o =>
    by_cases hm : o.mode = .register
    · exact absurd (h.symm.trans (if_pos hm)) nofun
    · exact ⟨if_neg hm, nofun, nofun, nofun⟩
  case store | sta | stx | sty | stz | stb | stc | std | ste | stf | stg | stu | stv | stw | sth | sts
      | stt | push | jsr => exact ⟨rfl, nofun, nofun, nofun⟩
  all_goals exact nomatch h

namespace BodyLeaves

section
variable {i : Instr} {u t : State}

/-- Only the destination of a form changes among the registers. -/
theorem keeps_getReg (h : BodyLeaves u i t) {r : Reg} (hr : destination i ≠ some r) :
    t.getReg r = u.getReg r := by
  cases h with
  | stops c => cases c <;> rfl
  | writesReg dest =>
    have other : r ≠ _ := fun same => hr (same ▸ dest)
    rw [State.getReg_advance, State.getReg_setReg, if_neg other]
  | popsReg =>
    have other : r ≠ _ := fun same => hr (same ▸ rfl)
    rw [State.getReg_advance, State.getReg_setReg, if_neg other, State.getReg_setSp]
  | _ => rfl

/-- SP moves by PUSH, JSR, POP, RTS and RTI alone (R25). -/
theorem keeps_sp (h : BodyLeaves u i t) (hi : ¬ movesSp i) : t.sp = u.sp := by
  cases h with
  | stops c => cases c <;> rfl
  | pushes moves => exact absurd moves hi
  | popsReg | returns | returnsFromInterrupt => exact absurd trivial hi
  | _ => rfl

/-- A body writes `ie` by SEI and CLI alone (R27). -/
theorem ie (h : BodyLeaves u i t) :
    t.ie = u.ie ∨ i = .sei ∧ t.ie = true ∨ i = .cli ∧ t.ie = false := by
  cases h with
  | stops c => exact .inl (by cases c <;> rfl)
  | enables => exact .inr (.inl ⟨rfl, rfl⟩)
  | disables => exact .inr (.inr ⟨rfl, rfl⟩)
  | _ => exact .inl rfl

/-- A body writes `inirq` by RTI alone (R28). -/
theorem inirq (h : BodyLeaves u i t) : t.inirq = u.inirq ∨ i = .rti ∧ t.inirq = false := by
  cases h with
  | stops c => exact .inl (by cases c <;> rfl)
  | returnsFromInterrupt => exact .inr ⟨rfl, rfl⟩
  | _ => exact .inl rfl

/-- No body reaches the timer (R30 to R34). -/
theorem keeps_timer (h : BodyLeaves u i t) : sameTimer u t := by
  cases h with
  | stops c => exact sameTimer_stop u c
  | _ => exact ⟨rfl, rfl, rfl, rfl, rfl, rfl⟩

/-- A form that stores nothing leaves memory as it is. -/
theorem keeps_mem (h : BodyLeaves u i t) (hi : storeAddress i u = none) : t.mem = u.mem := by
  cases h with
  | stops c => cases c <;> rfl
  | stores address | pushes _ address => exact nomatch hi.symm.trans address
  | _ => rfl

/-- A form that stores leaves the bytes outside its four as they are. -/
theorem keeps_readByte (h : BodyLeaves u i t) {a : Word} (hi : storeAddress i u = some (.ok a)) {b : Nat}
    (outside : b < a.toNat ∨ a.toNat + 4 ≤ b) : t.readByte b = u.readByte b := by
  cases h with
  | stops c => cases c <;> rfl
  | stores address | pushes _ address =>
    cases hi.symm.trans address
    exact u.mem.read_writeWord_outside _ _ outside
  | _ => rfl

/-- A body keeps the memory and stack invariant: its own stack check comes before SP moves (R214). -/
theorem keeps_inv (h : BodyLeaves u i t) (hu : u.Inv) : t.Inv := by
  obtain ⟨canonical, stack⟩ := hu
  cases h with
  | stops c => cases c <;> exact ⟨canonical, stack⟩
  | writesReg | movesPc | enables | disables => exact ⟨canonical, stack⟩
  | stores _ backed v => exact ⟨writeWord_wf_of_backs v canonical backed, stack⟩
  | pushes _ _ room backed v =>
    exact ⟨writeWord_wf_of_backs v canonical backed, stackInv_of_push stack (by omega) rfl⟩
  | popsReg filled | returns filled | returnsFromInterrupt filled =>
    exact ⟨canonical, stackInv_of_pop stack filled rfl⟩

end

end BodyLeaves

/-! ### Frames -/

/-- A step whose body runs in `u` leaves what that body leaves. -/
theorem bodyLeaves_of_exec {i : Instr} {s u t : State} (hu : startBody s = .ok u) (h : exec i s = .next t) :
    BodyLeaves u i t := by
  rcases exec_leaves h with ended | ⟨u', hu', leaves⟩
  · exact nomatch hu.symm.trans ended
  · cases hu.symm.trans hu'
    exact leaves

/-- Settles O53: the frame of what a body leaves, for a form without a store address. -/
theorem formsThatStoreNothingKeepTheRest : Obligations.FormsThatStoreNothingKeepTheRest := by
  intro i s u t hu hi h
  have leaves : BodyLeaves u i t := bodyLeaves_of_exec hu h
  refine ⟨fun a => congrArg (Memory.read · a) (leaves.keeps_mem hi), fun r => leaves.keeps_getReg,
    leaves.keeps_sp, fun notSei notCli => ?ie, fun notRti => ?inirq, leaves.keeps_timer⟩
  case ie =>
    rcases leaves.ie with kept | ⟨sei, -⟩ | ⟨cli, -⟩
    exacts [kept, absurd sei notSei, absurd cli notCli]
  case inirq =>
    rcases leaves.inirq with kept | ⟨rti, -⟩
    exacts [kept, absurd rti notRti]

/-- Settles O54: the same frame for a form with a store address, which has no destination register and
writes no latch. -/
theorem storingFormsKeepTheRest : Obligations.StoringFormsKeepTheRest := by
  intro i s u t a hu hi h
  have leaves : BodyLeaves u i t := bodyLeaves_of_exec hu h
  obtain ⟨noDest, notSei, notCli, notRti⟩ := not_dest_of_storeAddress hi
  refine ⟨fun b => leaves.keeps_readByte hi, fun r => leaves.keeps_getReg (noDest ▸ nofun),
    leaves.keeps_sp, ?ie, ?inirq, leaves.keeps_timer⟩
  case ie =>
    rcases leaves.ie with kept | ⟨sei, -⟩ | ⟨cli, -⟩
    exacts [kept, absurd sei notSei, absurd cli notCli]
  case inirq =>
    rcases leaves.inirq with kept | ⟨rti, -⟩
    exacts [kept, absurd rti notRti]

/-! ### Rules of the whole machine -/

/-- A step ends in what its timer step leaves, or runs the body of an instruction or the stop of a reserved
opcode there. -/
theorem step_leaves {s t : State} (h : step s = .next t) :
    ∃ u, TimerLeaves s u ∧ (t = u ∨ (∃ i, BodyLeaves u i t) ∨ t = u.setStopped .reservedOpcode) := by
  obtain ⟨-, raw, -, ⟨i, -, hexec⟩ | ⟨-, hreserved⟩⟩ := step_eq_next h
  · rcases exec_leaves hexec with ended | ⟨u, hu, leaves⟩
    · exact ⟨t, timerLeaves_of_startBody_ended ended, .inl rfl⟩
    · exact ⟨u, timerLeaves_of_startBody_ok hu, .inr (.inl ⟨i, leaves⟩)⟩
  · rcases execReservedOpcode_eq_next hreserved with ended | ⟨u, hu, stops⟩
    · exact ⟨t, timerLeaves_of_startBody_ended ended, .inl rfl⟩
    · exact ⟨u, timerLeaves_of_startBody_ok hu, .inr (.inr stops)⟩

/-- Settles O55: the timer step keeps the invariant, and so does what follows it. -/
theorem stepKeepsMemoryAndStackInvariant : Obligations.StepKeepsMemoryAndStackInvariant := by
  intro s t hs h
  obtain ⟨u, timer, body⟩ := step_leaves h
  have hu : u.Inv := timer.keeps_inv hs
  rcases body with rfl | ⟨i, leaves⟩ | rfl
  · exact hu
  · exact leaves.keeps_inv hu
  · exact hu

/-- Settles O57: the timer step keeps its configuration, and no body reaches the timer. -/
theorem timerConfigurationNeverChanges : Obligations.TimerConfigurationNeverChanges := by
  intro s t h
  obtain ⟨u, timer, body⟩ := step_leaves h
  rcases body with rfl | ⟨i, leaves⟩ | rfl
  · exact timer.keeps_configuration
  · obtain ⟨enable, period, installed⟩ := timer.keeps_configuration
    obtain ⟨sameEnable, -, samePeriod, -, -, sameInstalled⟩ := leaves.keeps_timer
    exact ⟨sameEnable.trans enable, samePeriod.trans period, sameInstalled.trans installed⟩
  · exact timer.keeps_configuration

/-- Settles O58: the timer step keeps `ie` and sets `inirq` by an entry alone; the body writes each latch by
the instructions of its own. -/
theorem latchesChangeOnlyByTheirOwnEvents : Obligations.LatchesChangeOnlyByTheirOwnEvents := by
  refine ⟨fun i s t h => ?instruction, fun s t h => ?reserved⟩
  case instruction =>
    rcases exec_leaves h with ended | ⟨u, hu, leaves⟩
    · have timer : TimerLeaves s t := timerLeaves_of_startBody_ended ended
      exact ⟨fun changed => absurd timer.keeps_ie changed,
        fun changed => .inl (timer.inirq.resolve_left changed)⟩
    · have timer : TimerLeaves s u := timerLeaves_of_startBody_ok hu
      refine ⟨fun changed => leaves.ie.resolve_left fun kept => changed (kept.trans timer.keeps_ie),
        fun changed => ?_⟩
      rcases leaves.inirq with kept | rti
      · rw [kept] at changed ⊢
        exact .inl (timer.inirq.resolve_left changed)
      · exact .inr rti
  case reserved =>
    rcases execReservedOpcode_eq_next h with ended | ⟨u, hu, rfl⟩
    · have timer : TimerLeaves s t := timerLeaves_of_startBody_ended ended
      exact ⟨timer.keeps_ie, timer.inirq.resolve_left⟩
    · have timer : TimerLeaves s u := timerLeaves_of_startBody_ok hu
      exact ⟨timer.keeps_ie, timer.inirq.resolve_left⟩

end Sys2Proof.Claims
end

section
/-! PROOFS. The timer and the interrupt entry in a step, R121 and R248 to R256; which accesses a step can be
refused for, R51, R58 and R249; and that every instruction completes, R110, R112 and R246. -/

namespace Sys2Proof.Machine

/-! ### Refusals (R51, R58) -/

theorem finish_eq_refused {x : Except Abort State} {r : Refusal} :
    finish x = .refused r ↔ x = .error (.refused r) := by
  rcases x with (_ | _) | _ <;> simp [finish]

/-- An access refused where the installed addresses are the same is refused here. -/
theorem accessRefused_of_installed_eq {s u : State} {e : Abort} (h : u.installed = s.installed)
    (refused : accessRefused u e) : accessRefused s e := by
  obtain ⟨a, unbacked, he⟩ := refused
  have sameBacks : u.backs a 4 = s.backs a 4 := by simp only [State.backs, State.isInstalled, h]
  exact ⟨a, sameBacks ▸ unbacked, he⟩

theorem startBody_refused {s : State} {r : Refusal} (h : startBody s = .error (.refused r)) :
    accessRefused s (.refused r) := by
  obtain ⟨-, ⟨-, e, -, he⟩ | ⟨-, he⟩ | refused⟩ := startBodyWith_eq_error h
  · cases he
  · cases he
  · exact refused

end Sys2Proof.Machine

namespace Sys2Proof.Claims

open Sys2Proof.Machine

/-- A step without a read-style operand is refused in its timer step or in its body. -/
theorem runBody_refused {s : State} {body : State → Except Abort State} {r : Refusal}
    (hbody : ∀ u, body u = .error (.refused r) → accessRefused u (.refused r))
    (h : runBody s body = .refused r) : accessRefused s (.refused r) := by
  rcases bind_eq_error.1 (finish_eq_refused.1 h) with early | ⟨u, hu, late⟩
  · exact startBody_refused early
  · obtain ⟨-, -, sameInstalled⟩ := (timerLeaves_of_startBody_ok hu).keeps_configuration
    exact accessRefused_of_installed_eq sameInstalled (hbody u late)

/-- The body of an instruction is refused for an access alone. -/
theorem bodyOf_refused {i : Instr} {s u : State} {v : Word} {r : Refusal}
    (hread : ∀ o, readOperand i = some o → resolve o s = .ok v) (h : bodyOf i v u = .error (.refused r)) :
    accessRefused u (.refused r) := by
  have ends : BodyEnds u (bodyStops (some i) s u) (bodyOf i v u) := bodyOf_ends hread
  rw [h] at ends
  cases ends
  case refused access => exact access

/-- An instruction is refused for its operand, its timer step or its body, each time for an access. -/
theorem exec_refused {i : Instr} {s : State} {r : Refusal} (h : exec i s = .refused r) :
    accessRefused s (.refused r) := by
  rw [exec_eq] at h
  cases ho : readOperand i with
  | none =>
    rw [ho] at h
    exact runBody_refused (fun u => bodyOf_refused (s := s) (ho ▸ nofun)) h
  | some o =>
    rw [ho] at h
    cases hv : resolve o s with
    | error e =>
      have unread : runRead o s (bodyOf i) = finish (.error e) := by
        simp only [runRead, hv, bind, Except.bind]
      cases finish_eq_refused.1 (unread.symm.trans h)
      exact resolve_eq_error hv
    | ok v =>
      have read : runRead o s (bodyOf i) = runBody s (bodyOf i v) := by
        simp only [runRead, runBody, hv, bind, Except.bind]
      have hread : ∀ o', readOperand i = some o' → resolve o' s = .ok v := by
        intro o' ho'
        cases ho.symm.trans ho'
        exact hv
      exact runBody_refused (fun u => bodyOf_refused hread) (read ▸ h)

theorem execReservedOpcode_refused {s : State} {r : Refusal} (h : execReservedOpcode s = .refused r) :
    accessRefused s (.refused r) :=
  runBody_refused (body := raiseStop .reservedOpcode) (fun _ stops => nomatch stops) h

/-- Whatever a step runs ends by `finish`, which never faults. -/
theorem exec_ne_fault (i : Instr) (s : State) (f : Fault) : exec i s ≠ .fault f := by
  rw [exec_eq]
  cases readOperand i with
  | none => exact finish_ne_fault _ f
  | some o => exact finish_ne_fault _ f

/-- Settles O60: nothing faults, and what is refused is a four-byte access without a meaning. -/
theorem onlyAccessesAreRefused : Obligations.OnlyAccessesAreRefused := by
  intro s out hout
  refine ⟨fun f => ?noFault, fun r hr => ?named⟩
  case noFault =>
    rcases hout with ⟨i, rfl⟩ | rfl
    · exact exec_ne_fault i s f
    · exact finish_ne_fault _ f
  case named =>
    have refused : accessRefused s (.refused r) := by
      rcases hout with ⟨i, rfl⟩ | rfl
      · exact exec_refused hr
      · exact execReservedOpcode_refused hr
    obtain ⟨a, unbacked, he⟩ := refused
    cases he
    exact ⟨a, State.accessRefusal_cases unbacked⟩

/-! ### Interrupt entry and timer step -/

/-- Settles O22: the entry with room on the stack and its two accesses installed. -/
theorem interruptEntryPushesAndVectors : Obligations.InterruptEntryPushesAndVectors :=
  fun _ => interruptEntry_of_backs

/-- The countdown after an entry that stops is 0 or the reload period (D24). -/
theorem overflow_tCount_cases {s : State} (hdue : s.interruptDue = true) :
    (s.atExpiry.setStoppedAnyPc .stackOverflow).overflowReload.tCount = 0#32 ∨
      (s.atExpiry.setStoppedAnyPc .stackOverflow).overflowReload.tCount = s.tPeriod := by
  obtain ⟨enabled, -⟩ := State.interruptDue_iff_elements.1 hdue
  rw [State.overflowReload_tCount]
  split
  · exact .inr ((State.timerReload_tCount _).trans (if_pos enabled))
  · exact .inl rfl

/-- Settles O24: the timer step stops the processor, which ends the step of whatever was fetched. -/
theorem entryOverflowStopsAnyInstruction : Obligations.EntryOverflowStopsAnyInstruction := by
  intro s hdue hsp
  have ended : startBody s = .error (.ended (s.atExpiry.setStoppedAnyPc .stackOverflow).overflowReload) := by
    rw [startBody, startBodyWith, timerStep_of_overflow hdue hsp]
  exact ⟨_, runBody_of_ended _ ended, fun _ hread => exec_of_ended hread ended, rfl, rfl, rfl, rfl, rfl, rfl,
    rfl, rfl, overflow_tCount_cases hdue⟩

/-- Settles O25: the state a step without a due interrupt leaves to its body. -/
theorem timerStepLeavesTheRestAlone : Obligations.TimerStepLeavesTheRestAlone :=
  fun _ => ⟨fun notDue => ⟨_, _, _, startBody_of_not_due notDue⟩, startBody_of_disabled⟩

/-! ### Every instruction completes -/

/-- A completed body that leaves the run state alone, and advances PC unless its instruction sets it. -/
def bodyCompletes (i : Instr) (u : State) (x : Except Abort State) : Prop :=
  ∃ t, x = .ok t ∧ t.run = u.run ∧ (¬ setsPc i → t.pc = u.pc + 8#32)

section
variable {i : Instr} {u : State}

theorem divideBody_completes (f : Word → Word → Word) (r : Reg) {v : Word} (h : v ≠ 0#32) :
    bodyCompletes i u (divideBody f r v u) :=
  ⟨_, divideBody_of_ne f r u h, rfl, fun _ => rfl⟩

theorem branchBody_completes (test : Word → Bool) (r : Reg) (target : Word) (hi : setsPc i) :
    bodyCompletes i u (branchBody test r target u) :=
  ⟨_, branchBody_eq test r target u, rfl, fun notSets => absurd hi notSets⟩

theorem storeBody_completes (r : Reg) {o : Operand}
    (h : ∃ a, storeTarget o u = .ok a ∧ u.backs a 4 = true) : bodyCompletes i u (storeBody r o u) :=
  have ⟨a, ha, backed⟩ := h
  ⟨_, storeBody_eq_ok.2 ⟨a, ha, backed, rfl⟩, rfl, fun _ => rfl⟩

theorem incDecBody_completes (f : Word → Word) {o : Operand}
    (h : o.mode = .register ∨ ∃ a, storeTarget o u = .ok a ∧ u.backs a 4 = true) :
    bodyCompletes i u (incDecBody f o u) := by
  by_cases hmode : o.mode = .register
  · exact ⟨_, incDecBody_eq_ok.2 (.inl ⟨hmode, rfl⟩), rfl, fun _ => rfl⟩
  · obtain ⟨a, ha, backed⟩ := h.resolve_left hmode
    exact ⟨_, incDecBody_eq_ok.2 (.inr ⟨hmode, a, ha, backed, rfl⟩), rfl, fun _ => rfl⟩

theorem push_then_completes {w : Word} {g : State → State} (hrun : ∀ t, (g t).run = t.run)
    (hpc : ¬ setsPc i → ∀ t, (g t).pc = t.pc + 8#32)
    (h : 0x2004 ≤ u.sp.toNat ∧ u.backs (u.sp - 4#32) 4 = true) :
    bodyCompletes i u (push w u >>= fun t => .ok (g t)) :=
  have ⟨room, backed⟩ := h
  ⟨_, bind_eq_ok.2 ⟨_, push_eq_ok.2 ⟨room, backed, rfl⟩, rfl⟩, hrun _, fun notSets => hpc notSets _⟩

theorem pop_then_completes {g : Word × State → State} (hrun : ∀ p, (g p).run = p.2.run)
    (hpc : ¬ setsPc i → ∀ p, (g p).pc = p.2.pc + 8#32)
    (h : u.sp.toNat < 0x9F000 ∧ u.backs u.sp 4 = true) :
    bodyCompletes i u (pop u >>= fun p => .ok (g p)) :=
  have ⟨filled, backed⟩ := h
  ⟨_, bind_eq_ok.2 ⟨_, pop_eq_ok.2 ⟨filled, backed, rfl⟩, rfl⟩, hrun _, fun notSets => hpc notSets _⟩

/-- The body of every instruction but HALT completes under the conditions on the state it runs in. -/
theorem bodyOf_completes {v : Word} (hhalt : i ≠ .halt) (h : completesIn i u)
    (hread : ∀ o, readOperand i = some o → resolve o u = .ok v) : bodyCompletes i u (bodyOf i v u) := by
  cases i
  case store | sta | stx | sty | stz | stb | stc | std | ste | stf | stg | stu | stv | stw | sth | sts
      | stt => exact storeBody_completes _ h
  case inc | dec => exact incDecBody_completes _ h
  case div | mod =>
    obtain ⟨w, hw, nonzero⟩ := h
    cases hw.symm.trans (hread _ rfl)
    exact divideBody_completes _ _ nonzero
  case push => exact push_then_completes (g := State.advance) (fun _ => rfl) (fun _ _ => rfl) h
  case jsr target =>
    exact push_then_completes (g := (State.setPc · target)) (fun _ => rfl) (absurd trivial) h
  case pop => exact pop_then_completes (fun _ => rfl) (fun _ _ => rfl) h
  case rts | rti => exact pop_then_completes (fun _ => rfl) (absurd trivial) h
  case jnz | jz | jgt | jge | jlt | jle => exact branchBody_completes _ _ _ trivial
  case jmp => exact ⟨_, rfl, rfl, absurd trivial⟩
  case halt => exact absurd rfl hhalt
  all_goals exact ⟨_, rfl, rfl, fun _ => rfl⟩

/-- An instruction that completes can read its operand. -/
theorem resolves_of_completesIn {s : State} (h : completesIn i s) {o : Operand}
    (ho : readOperand i = some o) : ∃ v, resolve o s = .ok v := by
  cases i
  case div | mod =>
    cases ho
    obtain ⟨v, hv, -⟩ := h
    exact ⟨v, hv⟩
  all_goals cases ho <;> exact h

/-- The conditions do not depend on what a timer step without an entry changes. -/
theorem completesIn_afterTimer {s : State} (h : completesIn i s) : completesIn i s.afterTimer := by
  cases i <;> exact h

end

/-- Settles O27: the body runs where the timer has only counted, on the operand read before it. -/
theorem everyInstructionCompletes : Obligations.EveryInstructionCompletes := by
  intro i s notDue h
  have hu : startBody s = .ok s.afterTimer := startBody_of_not_due notDue
  by_cases hhalt : i = .halt
  · subst hhalt
    exact ⟨_, exec_of_body_ended rfl hu (bodyOf_halt 0#32 _), absurd rfl, fun _ => rfl, absurd trivial⟩
  obtain ⟨v, hread, hv⟩ : ∃ v, (∀ o, readOperand i = some o → resolve o s = .ok v) ∧
      (readOperand i = none → v = 0#32) := by
    cases ho : readOperand i with
    | none => exact ⟨0#32, nofun, fun _ => rfl⟩
    | some o =>
      obtain ⟨v, hv⟩ := resolves_of_completesIn h ho
      exact ⟨v, fun _ ho' => Option.some.inj ho' ▸ hv, nofun⟩
  obtain ⟨t, hbody, sameRun, advances⟩ := bodyOf_completes hhalt (completesIn_afterTimer h) hread
  refine ⟨t, ?_, fun _ => sameRun, fun isHalt => absurd isHalt hhalt, advances⟩
  rw [exec_of_ok hread hv hu, hbody, finish_ok]

end Sys2Proof.Claims
end

section
/-! PROOFS. Counting timer steps over a run, R250 and R263: the counter as a number of steps to the expiry,
one step that counts, the step that expires, and the run. -/

namespace Sys2Proof.Machine

/-! ### One counting step (R250) -/

section
variable {s : State}

/-- A prescaler one step further, modulo the divider. -/
theorem State.preAfterTimer_val (enabled : s.tEn = true) :
    s.preAfterTimer.val = (s.tPre.val + 1) % 44100 := by
  have inRange : s.tPre.val < 44100 := s.tPre.isLt
  unfold State.preAfterTimer
  rw [if_neg (ne_false_of_eq_true enabled)]
  split
  · next below => exact Fin.val_add _ _
  · next full =>
    have notBelow : ¬ s.tPre.val + 1 < 44100 := full
    have atDivider : s.tPre.val + 1 = 44100 := by omega
    rw [atDivider]
    rfl

/-- A countdown of 0 stays there. -/
theorem State.countAfterTimer_of_zero (zero : s.tCount = 0#32) : s.countAfterTimer = 0#32 := by
  rw [State.countAfterTimer, if_pos (.inr (.inr zero)), zero]

/-- Before the last step of the count the countdown is one less when the prescaler wraps. -/
theorem State.countAfterTimer_toNat (enabled : s.tEn = true)
    (early : s.tPre.val + 1 < 44100 * s.tCount.toNat) :
    s.countAfterTimer.toNat = s.tCount.toNat - (s.tPre.val + 1) / 44100 := by
  have inRange : s.tPre.val < 44100 := s.tPre.isLt
  have notZero : s.tCount ≠ 0#32 := by bv_omega
  unfold State.countAfterTimer
  split
  · next counts =>
    rcases counts with disabled | below | zero
    · exact absurd (enabled.symm.trans disabled) (by decide)
    · rw [Nat.div_eq_of_lt below, Nat.sub_zero]
    · exact absurd zero notZero
  · next wraps =>
    have full : s.tPre.val + 1 = 44100 := by
      have notBelow : ¬ s.tPre.val + 1 < 44100 := fun below => wraps (.inr (.inl below))
      omega
    have notOne : s.tCount ≠ 1#32 := by bv_omega
    rw [if_neg notOne, full]
    bv_omega

/-- Before the last step of the count the timer does not expire. -/
theorem State.timerExpires_of_early (early : s.tPre.val + 1 < 44100 * s.tCount.toNat) :
    s.timerExpires = false := by
  rw [← Bool.not_eq_true, State.timerExpires_iff]
  rintro ⟨-, full, one⟩
  have full' : s.tPre.val + 1 = 44100 := full
  rw [one] at early
  simp only [BitVec.toNat_ofNat] at early
  omega

theorem State.timerExpires_of_count_zero (zero : s.tCount = 0#32) : s.timerExpires = false := by
  rw [← Bool.not_eq_true, State.timerExpires_iff, zero]
  exact fun ⟨_, _, one⟩ => absurd one (by decide)

/-- Without an expiry no interrupt is due. -/
theorem State.not_due_of_not_expires (h : s.timerExpires = false) : s.interruptDue = false := by
  simp only [State.interruptDue, h, Bool.false_and]

/-- The expiry reloads the countdown and clears the prescaler. -/
theorem State.afterTimer_of_expires (h : s.timerExpires = true) :
    s.afterTimer.tPre = 0 ∧ s.afterTimer.tCount = s.tPeriod ∧ s.afterTimer.tState = .expired := by
  obtain ⟨enabled, full, one⟩ := (State.timerExpires_iff s).1 h
  have full' : ¬ s.tPre.val + 1 < Config.timerDivider := by omega
  refine ⟨?pre, ?count, if_pos h⟩
  case pre =>
    exact (if_neg (ne_false_of_eq_true enabled)).trans (if_neg full')
  case count =>
    have counts : ¬ (s.tEn = false ∨ s.tPre.val + 1 < Config.timerDivider ∨ s.tCount = 0#32) := by
      simp [enabled, full', one]
    exact (if_neg counts).trans (if_pos one)

end

end Sys2Proof.Machine

namespace Sys2Proof.Claims

open Sys2Proof.Machine

/-! ### The timer in one step of the machine -/

/-- A step leaves the timer as its timer step does, and a stop of the timer step is the whole step. -/
theorem step_keeps_timer {s t : State} (h : step s = .next t) :
    timerStep s = .error (.ended t) ∨ ∃ u b, timerStep s = .ok (u, b) ∧ sameTimer u t := by
  obtain ⟨-, raw, hfetch, -⟩ := step_eq_next h
  exact (stepEnds_of_step hfetch h).keeps_timer

/-- A step without an expiry enters no interrupt and leaves the timer one count further. -/
theorem step_counts {s t : State} (h : step s = .next t) (quiet : s.timerExpires = false) :
    timerStep s = .ok (s.afterTimer, false) ∧ sameTimer s.afterTimer t := by
  have counted : timerStep s = .ok (s.afterTimer, false) :=
    timerStep_of_not_due (State.not_due_of_not_expires quiet)
  refine ⟨counted, ?_⟩
  rcases step_keeps_timer h with ended | ⟨u, b, answers, kept⟩
  · exact nomatch counted.symm.trans ended
  · cases counted.symm.trans answers
    exact kept

/-- The step of the expiry: the timer is expired and its prescaler 0, and unless the processor stopped in it
the countdown is the reload period. -/
theorem step_expires {s t : State} (h : step s = .next t) (expires : s.timerExpires = true) :
    t.tState = .expired ∧ t.tPre = 0 ∧ (t.run = .running → t.tCount = s.tPeriod) := by
  rcases step_keeps_timer h with ended | ⟨u, b, answers, -, count, -, pre, state, -⟩
  · obtain ⟨-, -, rfl⟩ := timerStep_eq_ended ended
    exact ⟨rfl, rfl, nofun⟩
  · rw [count, pre, state]
    rcases timerStep_eq_ok answers with ⟨-, -, rfl⟩ | ⟨-, -, -, -, rfl⟩
    · obtain ⟨preZero, reloaded, expired⟩ := State.afterTimer_of_expires expires
      exact ⟨expired, preZero, fun _ => reloaded⟩
    · exact ⟨rfl, rfl, fun _ => rfl⟩

/-- At an expiry an interrupt is entered exactly when the latches let it (R252). -/
theorem entered_iff_of_expires {s u : State} {b : Bool} (expires : s.timerExpires = true)
    (answers : timerStep s = .ok (u, b)) : b = true ↔ s.ie = true ∧ s.inirq = false := by
  have due_iff : s.interruptDue = true ↔ s.ie = true ∧ s.inirq = false := by
    rw [State.interruptDue_iff, expires, eq_self, true_and]
  rw [← due_iff]
  rcases timerStep_eq_ok answers with ⟨rfl, notDue, -⟩ | ⟨rfl, due, -⟩
  · rw [notDue]
  · rw [due]

/-! ### Runs -/

/-- The timer of `t` after `k` steps of counting from `s`, before the expiry: prescaler and countdown where
counting puts them, the other elements as in `s`. -/
structure CountedBy (s : State) (k : Nat) (t : State) : Prop where
  enabled : t.tEn = true
  period : t.tPeriod = s.tPeriod
  pre : t.tPre.val = (s.tPre.val + k) % 44100
  count : t.tCount.toNat = s.tCount.toNat - (s.tPre.val + k) / 44100
  state : t.tState = s.tState

section
variable {s t t' : State} {k : Nat}

theorem CountedBy.zero (enabled : s.tEn = true) : CountedBy s 0 s := by
  have inRange : s.tPre.val < 44100 := s.tPre.isLt
  refine ⟨enabled, rfl, ?pre, ?count, rfl⟩ <;> omega

/-- While steps remain, prescaler and countdown say how many. -/
theorem CountedBy.remaining (h : CountedBy s k t) (inside : s.tPre.val + k < 44100 * s.tCount.toNat) :
    44100 * t.tCount.toNat + s.tPre.val + k = 44100 * s.tCount.toNat + t.tPre.val := by
  obtain ⟨-, -, pre, count, -⟩ := h
  omega

/-- One more step of counting before the expiry. -/
theorem CountedBy.succ (h : CountedBy s k t) (hstep : step t = .next t')
    (early : s.tPre.val + k + 1 < 44100 * s.tCount.toNat) : CountedBy s (k + 1) t' := by
  have remains := h.remaining (by omega)
  obtain ⟨enabled, period, pre, count, state⟩ := h
  have early' : t.tPre.val + 1 < 44100 * t.tCount.toNat := by omega
  have quiet : t.timerExpires = false := State.timerExpires_of_early early'
  obtain ⟨-, keptEn, keptCount, keptPeriod, keptPre, keptState, -⟩ := step_counts hstep quiet
  refine ⟨keptEn.trans enabled, keptPeriod.trans period, ?pre, ?count, ?state⟩
  case pre =>
    rw [keptPre, State.afterTimer_tPre, State.preAfterTimer_val enabled]
    omega
  case count =>
    rw [keptCount, State.afterTimer_tCount, State.countAfterTimer_toNat enabled early']
    omega
  case state =>
    rw [keptState, State.afterTimer_tState, quiet, if_neg Bool.false_ne_true, state]

/-- The last step of the count is the expiry. -/
theorem CountedBy.expires (h : CountedBy s k t) (last : s.tPre.val + k + 1 = 44100 * s.tCount.toNat) :
    t.timerExpires = true := by
  have remains := h.remaining (by omega)
  have inRange : t.tPre.val < 44100 := t.tPre.isLt
  have full : t.tPre.val + 1 = 44100 := by omega
  have one : t.tCount.toNat = (1#32 : Word).toNat := show t.tCount.toNat = 1 by omega
  exact (State.timerExpires_iff t).2 ⟨h.enabled, full, BitVec.eq_of_toNat_eq one⟩

end

section
variable {f : Nat → State} {n : Nat}

/-- Every state of a run before the expiry is counted by its place. -/
theorem countedBy_of_run (run : ∀ k, k < n → step (f k) = .next (f (k + 1))) (enabled : (f 0).tEn = true)
    (length : n + (f 0).tPre.val = 44100 * (f 0).tCount.toNat) {k : Nat} (hk : k < n) :
    CountedBy (f 0) k (f k) := by
  induction k with
  | zero => exact .zero enabled
  | succ k ih => exact (ih (by omega)).succ (run k (by omega)) (by omega)

/-- From a countdown of 0 the countdown and the timer state stay. -/
theorem count_zero_of_run (run : ∀ k, k < n → step (f k) = .next (f (k + 1))) (zero : (f 0).tCount = 0#32)
    {k : Nat} (hk : k ≤ n) : (f k).tCount = 0#32 ∧ (f k).tState = (f 0).tState := by
  induction k with
  | zero => exact ⟨zero, rfl⟩
  | succ k ih =>
    obtain ⟨count, state⟩ := ih (by omega)
    have quiet : (f k).timerExpires = false := State.timerExpires_of_count_zero count
    obtain ⟨-, -, keptCount, -, -, keptState, -⟩ := step_counts (run k hk) quiet
    refine ⟨keptCount.trans (State.countAfterTimer_of_zero count), ?_⟩
    rw [keptState, State.afterTimer_tState, quiet, if_neg Bool.false_ne_true, state]

end

/-- Settles O26: the run counts to its last step, which is the expiry; from 0 it never gets there. -/
theorem firstExpiryIsAtTheCountedStep : Obligations.FirstExpiryIsAtTheCountedStep := by
  intro f n run enabled
  refine ⟨fun notZero length => ?counts, fun zero => ?never⟩
  case never =>
    have stays {k : Nat} : k ≤ n → (f k).tCount = 0#32 ∧ (f k).tState = (f 0).tState :=
      count_zero_of_run run zero
    refine ⟨fun k => stays, fun k hk => ?_⟩
    obtain ⟨count, -⟩ := stays hk.le
    obtain ⟨counts, -⟩ := step_counts (run k hk) (State.timerExpires_of_count_zero count)
    exact ⟨_, counts⟩
  case counts =>
    have counted {k : Nat} : k < n → CountedBy (f 0) k (f k) := countedBy_of_run run enabled length
    have inRange : (f 0).tPre.val < 44100 := (f 0).tPre.isLt
    have positive : 0 < n := by
      have countPositive : (f 0).tCount.toNat ≠ 0 := by bv_omega
      omega
    obtain ⟨m, rfl⟩ : ∃ m, n = m + 1 := ⟨n - 1, by omega⟩
    have atLast : CountedBy (f 0) m (f m) := counted m.lt_succ_self
    have expires : (f m).timerExpires = true := atLast.expires (by omega)
    obtain ⟨expired, preZero, reloaded⟩ := step_expires (run m m.lt_succ_self) expires
    refine ⟨fun k hk => ⟨(counted hk).pre, (counted hk).count, (counted hk).state⟩, fun k hk => ?quiet,
      fun u b => entered_iff_of_expires expires, expired, congrArg Fin.val preZero,
      fun running => (reloaded running).trans atLast.period⟩
    case quiet =>
      have remains := (counted (k := k) (by omega)).remaining (by omega)
      have early : (f k).tPre.val + 1 < 44100 * (f k).tCount.toNat := by omega
      obtain ⟨counts, -⟩ := step_counts (run k (by omega)) (State.timerExpires_of_early early)
      exact ⟨_, counts⟩

end Sys2Proof.Claims
end
